-- ==== Sys2Proof/Syntax.lean ====
section
/-!
DEFINITION. The thirteen operations of the engine (R83), one constructor per row of the opcode table, in its order.
A command word has no immediate, register or mode field (R81), so no constructor has an argument.
-/

namespace Sys2Proof

/-- The operations of rule R83. -/
inductive Instr where
  /-- `TCOMP`, temperature compensation (R185). -/
  | tcomp
  /-- `PCOMP`, pressure compensation (R193). -/
  | pcomp
  /-- `HCOMP`, humidity compensation (R203). -/
  | hcomp
  /-- `FXNEW10`, construct an FX10 value (R115). -/
  | fxnew10
  /-- `FXINT10`, integer field of an FX10 value (R116). -/
  | fxint10
  /-- `FXFRAC10`, fraction field of an FX10 value (R117). -/
  | fxfrac10
  /-- `FXDIV10`, division of FX10 values (R118). -/
  | fxdiv10
  /-- `FXNEW8`, construct an FX8 value (R120). -/
  | fxnew8
  /-- `FXINT8`, integer field of an FX8 value (R121). -/
  | fxint8
  /-- `FXFRAC8`, fraction field of an FX8 value (R122). -/
  | fxfrac8
  /-- `FXDIV8`, division of FX8 values (R123). -/
  | fxdiv8
  /-- `WRCAL`, write one coefficient (R153). -/
  | wrcal
  /-- `RDCAL`, read one coefficient back (R154). -/
  | rdcal
  deriving DecidableEq, Repr

end Sys2Proof
end

