-- ==== Sys2Proof/Word.lean ====
section
/-!
DEFINITION. The word and byte types (R9, R15, R16): a word is a 32-bit pattern, bit 0 least significant.
-/

namespace Sys2Proof

/-- A 32-bit word: every engine register, operand and result is one (R9). -/
abbrev Word := BitVec 32

/-- A byte: what a byte lane of the window or a sensor register carries (R63, R160, R165). -/
abbrev Byte := BitVec 8

end Sys2Proof
end

