-- ==== Sys2Proof/Decode.lean ====
section
/-!
DEFINITION. The command format (R80), the opcode map (R83), the illegal encodings (R86), and the byte lanes of a word
(R63). The encoder is written from the same table after the decoder.
-/

namespace Sys2Proof

/-- Why a command word selects no operation; both raise IllegalOp (R86, R231). -/
inductive Illegal where
  /-- `CMD[31:8] ≠ 0`. -/
  | reservedBits
  /-- `CMD[7:0]` is no `OP` of rule R83. -/
  | unassignedOp
  /-- Fewer than four bytes: no command word (R80: every command is exactly one word). -/
  | truncated
  deriving DecidableEq, Repr

/-- The field `OP = CMD[7:0]` (R80). -/
def opField (c : Word) : BitVec 8 := c.extractLsb' 0 8

/-- The field `RSV = CMD[31:8]` (R80). -/
def reservedField (c : Word) : BitVec 24 := c.extractLsb' 8 24

/-- The opcode map (R83). Every value not listed is reserved (R82, R86). -/
def decodeOp (op : BitVec 8) : Except Illegal Instr :=
  match op.toNat with
  | 0x01 => .ok .tcomp
  | 0x02 => .ok .pcomp
  | 0x03 => .ok .hcomp
  | 0x10 => .ok .fxnew10
  | 0x11 => .ok .fxint10
  | 0x12 => .ok .fxfrac10
  | 0x13 => .ok .fxdiv10
  | 0x18 => .ok .fxnew8
  | 0x19 => .ok .fxint8
  | 0x1A => .ok .fxfrac8
  | 0x1B => .ok .fxdiv8
  | 0x20 => .ok .wrcal
  | 0x21 => .ok .rdcal
  | _    => .error .unassignedOp

/-- Decode a command word (R80, R83, R85): the reserved bits are checked first. -/
def decode (c : Word) : Except Illegal Instr :=
  if reservedField c = 0 then decodeOp (opField c) else .error .reservedBits

/-- Byte lane `i` of a window word: bits `[8i+7:8i]` (R63). -/
def lane (w : Word) (i : Nat) : Byte := w.extractLsb' (8 * i) 8

/-- The word whose byte lanes are given, lane 0 first (R63). -/
def ofLanes (b0 b1 b2 b3 : Byte) : Word := b3 ++ b2 ++ b1 ++ b0

/-- The four bytes a platform bus presents for a window word, lane 0 at the lowest address (R63). -/
def laneBytes (w : Word) : List Byte := [lane w 0, lane w 1, lane w 2, lane w 3]

/-- Decode a command from a list of bytes in lane order; the bytes after the command's four are handed back. -/
def decodeBytes : List Byte → Except Illegal (Instr × List Byte)
  | b0 :: b1 :: b2 :: b3 :: rest =>
    match decode (ofLanes b0 b1 b2 b3) with
    | .ok i    => .ok (i, rest)
    | .error e => .error e
  | _ => .error .truncated

/-- The value of `OP` for each operation (R83). -/
def opOf : Instr → BitVec 8
  | .tcomp    => 0x01
  | .pcomp    => 0x02
  | .hcomp    => 0x03
  | .fxnew10  => 0x10
  | .fxint10  => 0x11
  | .fxfrac10 => 0x12
  | .fxdiv10  => 0x13
  | .fxnew8   => 0x18
  | .fxint8   => 0x19
  | .fxfrac8  => 0x1A
  | .fxdiv8   => 0x1B
  | .wrcal    => 0x20
  | .rdcal    => 0x21

/-- The command word of an operation: `{0, OP}`, that is `0x000000oo` (R80, R83). -/
def encode (i : Instr) : Word := (0 : BitVec 24) ++ opOf i

/-- The command word the opcode table's bits give: the low `nbits` bits of `w`, every bit above them 0. A command is
exactly one word (R80), so bits from 32 up make no command. -/
def tableWord (nbits w : Nat) : Option Word :=
  if w % 2 ^ nbits < 2 ^ 32 then some (BitVec.ofNat 32 (w % 2 ^ nbits)) else none

/-- What the decoder reads from an instruction whose bits are `w`, numbered as the opcode table numbers them: the word
is laid out in its byte lanes and handed to the byte decoder. -/
def decodeTableWord (nbits w : Nat) : Option Instr :=
  match tableWord nbits w with
  | none => none
  | some c =>
    match decodeBytes (laneBytes c) with
    | .ok (i, _) => some i
    | .error _   => none

end Sys2Proof
end

