-- ==== Sys2Proof/Config.lean ====
section
/-!
DEFINITION. What an implementation fixes: the spec's two OPEN parameters (R12, R60; D4, D11), and the free value of a
read that faults (U6).
-/

namespace Sys2Proof

/-- The parameter `OVF` (R12): what an addition, subtraction, multiplication or division inside a compensation
function does when its result does not fit its width. -/
inductive Ovf where
  /-- The result wraps modulo `2^N`. -/
  | wrap
  /-- The step raises Overflow. -/
  | fault
  deriving DecidableEq, Repr

/-- The parameters a model takes as arguments. `step` takes no argument but the state, so a state carries them
(logs 2 and 3); no step changes them. -/
structure Params where
  /-- `OVF` (R12); the host sees it as `STATUS.OVFM` (R35). -/
  ovf : Ovf
  /-- `ENGINE_BASE` (R60): the address of the register window's first byte in the platform's address space. The spec
  gives that space no width, so an address is a natural number. -/
  engineBase : Nat
  deriving DecidableEq, Repr

/-- The parameters `State.reset` is built with: the spec's own choice `OVF = wrap` (R12, D11), and the base 0 (DESIGN
CHOICE, log 3: the spec leaves `ENGINE_BASE` open). -/
def Config.defaultParams : Params := { ovf := .wrap, engineBase := 0 }

/-- FREE VALUE (U6, R62, R65; log 6): the word the `n`th faulting read returns. It has no body, so nothing can be
proved of its value. -/
opaque Config.freeWord : Nat → BitVec 32

end Sys2Proof
end

