-- ==== Sys2Proof/Machine/Bus.lean ====
section
/-!
DEFINITION. The host's side of the engine: what it can do to the register window (R36, R60 to R67), the registers of
the window map (R61), and where an access lands.
-/

namespace Sys2Proof.Machine

/-- One host access to the platform's address space, of `width` bytes starting at byte address `addr` (R62). -/
inductive Access where
  /-- `MemRead(addr, width)`. -/
  | read (addr width : Nat)
  /-- `MemWrite(addr, width, data)`. Only a 4-byte write has an effect, so the data is one word (log 10). -/
  | write (addr width : Nat) (data : Word)
  deriving DecidableEq, Repr

/-- What can happen to the engine between two moments of its host (R36, R67, R260). -/
inductive HostEvent where
  /-- The host makes one access; each takes effect wholly before the next (R66). -/
  | access (a : Access)
  /-- The platform asserts the engine's reset input (R260). -/
  | reset
  /-- Two agents access the engine at the same time: outside the spec, a model refuses it (R67, D32; log 8). -/
  | concurrent (a b : Access)
  deriving DecidableEq, Repr

/-- The registers of the window map (R61). -/
inductive WinReg where
  | cmd | opa | opb | res0 | res1 | status | calmask
  /-- Offset 0x1C, which holds no register. -/
  | reserved
  deriving DecidableEq, Repr

/-- The offset of each register from `ENGINE_BASE` (R61). -/
def WinReg.offset : WinReg → Nat
  | .cmd      => 0x00
  | .opa      => 0x04
  | .opb      => 0x08
  | .res0     => 0x0C
  | .res1     => 0x10
  | .status   => 0x14
  | .calmask  => 0x18
  | .reserved => 0x1C

/-- The offset of an address from the window's base, where it lies inside the 32-byte window (R60). -/
def windowOffset (engineBase addr : Nat) : Option Nat :=
  if engineBase ≤ addr ∧ addr < engineBase + 32 then some (addr - engineBase) else none

/-- The register a word access at an offset reaches, where the offset is a multiple of 4 inside the window (R61). -/
def registerAt (off : Nat) : Option WinReg :=
  match off with
  | 0x00 => some .cmd
  | 0x04 => some .opa
  | 0x08 => some .opb
  | 0x0C => some .res0
  | 0x10 => some .res1
  | 0x14 => some .status
  | 0x18 => some .calmask
  | 0x1C => some .reserved
  | _    => none

/-- Where an access inside the window lands: no register, unless it is 4 bytes wide at a multiple of 4 (R62). -/
def accessTarget (off width : Nat) : Option WinReg :=
  if width = 4 then registerAt off else none

end Sys2Proof.Machine
end

