-- ==== Sys2Proof/Machine/State.lean ====
section
/-!
DEFINITION. The state of the engine (10_state.md), the model's own fields that stand for the host's side of the bus,
the faults the engine records (R230), and the state after reset (R43).
-/

namespace Sys2Proof.Machine

/-- The faults the engine RECORDS in `STATUS` (R230). Recording one is a next state (R234), never a stop of the model.
The spec records no address, operand or command word (R230), so a cause carries none. -/
inductive Cause where
  /-- FCODE 0x01: reserved bits set or an unassigned `OP` (R231). -/
  | illegalOp
  /-- FCODE 0x02: a zero divisor (R232). -/
  | divideByZero
  /-- FCODE 0x03: an arithmetic result outside its width, only when `OVF = fault` (R205). -/
  | overflow
  /-- FCODE 0x04: a coefficient entry the operation reads was never written (R180). -/
  | calUnwritten
  /-- FCODE 0x05: a coefficient index above 17 (R153, R154). -/
  | badIndex
  /-- FCODE 0x06: an operand register the operation reads was never written (R85). -/
  | operandUnwritten
  /-- FCODE 0x07: a host read of a register never written (R65). -/
  | unwrittenRead
  /-- FCODE 0x08: a host access the window does not admit (R62, R64, R65). -/
  | badAccess
  deriving DecidableEq, Repr

/-- Why the MODEL stops with a fault. No operation of the engine does. -/
inductive Fault where
  /-- Raised by the access of `step`: the access starts at an address outside the 32-byte window, which is the
  engine's only address space (R60); the access is not the engine's. SAFE: the model stops where a platform would
  go on with some other device (log 4). -/
  | outsideWindow
  deriving DecidableEq, Repr

/-- Why the MODEL refuses to go on. -/
inductive Refusal where
  /-- Raised by an arm of `exec` that has no meaning yet: no arm is such a one. SAFE: nothing runs. -/
  | notModelled (mnemonic : String)
  /-- Raised by `step` on two agents' accesses at the same time, which the spec puts outside itself and asks a model
  to refuse (R67, D32; log 8). SAFE: nothing runs. -/
  | concurrentAgents
  deriving DecidableEq, Repr

/-- The state. The first twelve fields are the engine's (10_state.md); `params` are the spec's OPEN parameters; the
last three are the MODEL's own: the host's side of the bus and the counter of free words. -/
structure State where
  /-- `OPA` (R30, R31). -/
  opa : Word
  /-- `OPB` (R30, R31). -/
  opb : Word
  /-- `RES0` (R30, R32). -/
  res0 : Word
  /-- `RES1` (R30, R32). -/
  res1 : Word
  /-- `W_OPA` (R37). -/
  wOpa : Bool
  /-- `W_OPB` (R37). -/
  wOpb : Bool
  /-- `W_RES0` (R37). -/
  wRes0 : Bool
  /-- `W_RES1` (R37). -/
  wRes1 : Bool
  /-- `CAL[0..17]` (R40, R150): each entry holds an integer of its type, not a word. -/
  cal : Vector Int 18
  /-- `CALW[0..17]` (R37); `CALMASK` is the same bits read as a word (R38). -/
  calw : Vector Bool 18
  /-- `STATUS.FAULT` (R35). -/
  fault : Bool
  /-- `STATUS.FCODE` (R35, R230). -/
  fcode : BitVec 8
  /-- `OVF` (seen as `STATUS.OVFM`, R35) and `ENGINE_BASE` (R60): never changed by a step. -/
  params : Params
  /-- The host's events still to come, the next first (R36; log 1). -/
  inputs : List HostEvent
  /-- The words the window has answered to host reads, oldest first (R65; log 7). -/
  answers : List Word
  /-- How many free words have been drawn (U6; log 6). -/
  draws : Nat
  deriving DecidableEq, Repr

/-- The engine at power-on with the parameters `p` (R43, R260): every written bit clear, `FAULT = 0`, `FCODE = 0x00`.
The content of an unwritten register or entry is unspecified and cannot be read (R43, U7); the model names it 0
(DESIGN CHOICE, log 5). No host event is pending (log 1). -/
def State.powerOn (p : Params) : State where
  opa := 0
  opb := 0
  res0 := 0
  res1 := 0
  wOpa := false
  wOpb := false
  wRes0 := false
  wRes1 := false
  cal := Vector.replicate 18 0
  calw := Vector.replicate 18 false
  fault := false
  fcode := 0x00
  params := p
  inputs := []
  answers := []
  draws := 0

/-- The machine right after reset, with the parameters of `Config.defaultParams`. -/
def State.reset : State := State.powerOn Config.defaultParams

end Sys2Proof.Machine
end

