-- ==== Sys2Proof/Machine/Flags.lean ====
section
/-!
DEFINITION. The words the engine shows of its flags: the fault codes (R230), `STATUS` (R35) and `CALMASK` (R38). The
engine has no condition code, carry or overflow flag (R35).
-/

namespace Sys2Proof.Machine

/-- The code of a cause, as `STATUS.FCODE` holds it (R230). -/
def Cause.code : Cause → BitVec 8
  | .illegalOp        => 0x01
  | .divideByZero     => 0x02
  | .overflow         => 0x03
  | .calUnwritten     => 0x04
  | .badIndex         => 0x05
  | .operandUnwritten => 0x06
  | .unwrittenRead    => 0x07
  | .badAccess        => 0x08

/-- `STATUS.OVFM`: hardwired, 0 when `OVF = wrap`, 1 when `OVF = fault` (R35). -/
def ovfmBit : Ovf → BitVec 1
  | .wrap  => 0
  | .fault => 1

/-- `STATUS` as a host read returns it (R35): OVFM at bit 16, FCODE at 15:8, FAULT at bit 0, every other bit 0. -/
def State.status (s : State) : Word :=
  (0 : BitVec 15) ++ ovfmBit s.params.ovf ++ s.fcode ++ (0 : BitVec 7) ++ BitVec.ofBool s.fault

/-- The bits of a list of written bits as a number, the first entry's in bit 0. -/
def bitsToNat : List Bool → Nat
  | []      => 0
  | b :: bs => b.toNat + 2 * bitsToNat bs

/-- `CALMASK` as a host read returns it (R38): bit `k` is `CALW[k]` for `k` in 0..17, every higher bit 0. -/
def State.calmask (s : State) : Word := BitVec.ofNat 32 (bitsToNat s.calw.toList)

end Sys2Proof.Machine
end

