-- ==== Sys2Proof/Machine/Arith.lean ====
section
/-!
DEFINITION. The notation of R16 and the width-checked arithmetic of R17, on mathematical integers.
-/

namespace Sys2Proof.Machine

/-- `s32(w)`: a word read as a 32-bit two's-complement integer (R16). -/
def s32 (w : Word) : Int := w.toInt

/-- `u32(w)`: a word read as an unsigned integer (R16). -/
def u32 (w : Word) : Nat := w.toNat

/-- `word(v)`: the 32-bit pattern of `v mod 2^32` (R16). -/
def word (v : Int) : Word := BitVec.ofInt 32 v

/-- `zext_N(v)`: the low `n` bits of `v`, read unsigned (R16). -/
def zext (n : Nat) (v : Int) : Int := v % 2 ^ n

/-- `sext_N(v)`: the low `n` bits of `v`, read as an `n`-bit two's-complement integer (R16). -/
def sext (n : Nat) (v : Int) : Int :=
  if v % 2 ^ n < 2 ^ (n - 1) then v % 2 ^ n else v % 2 ^ n - 2 ^ n

/-- `wrap_sN(v)`: the one integer congruent to `v` modulo `2^n` in `[-2^(n-1), 2^(n-1))` (R17). -/
def wrapS (n : Nat) (v : Int) : Int := v.bmod (2 ^ n)

/-- Does `v` fit an `n`-bit two's-complement integer (R17)? -/
def fitsS (n : Nat) (v : Int) : Bool := decide (-2 ^ (n - 1) ≤ v) && decide (v < 2 ^ (n - 1))

/-- `chk_N(v)` (R17): wraps, or raises Overflow, as `OVF` says (R12). -/
def chk (o : Ovf) (n : Nat) (v : Int) : Except Cause Int :=
  match o with
  | .wrap  => .ok (wrapS n v)
  | .fault => if fitsS n v then .ok v else .error .overflow

/-- `add_N(a, b)` (R17). -/
def add (o : Ovf) (n : Nat) (a b : Int) : Except Cause Int := chk o n (a + b)

/-- `sub_N(a, b)` (R17). -/
def sub (o : Ovf) (n : Nat) (a b : Int) : Except Cause Int := chk o n (a - b)

/-- `mul_N(a, b)` (R17). -/
def mul (o : Ovf) (n : Nat) (a b : Int) : Except Cause Int := chk o n (a * b)

/-- `shl_N(a, k)` (R17): never raises, bits shifted out are lost. -/
def shl (n : Nat) (a : Int) (k : Nat) : Int := wrapS n (a * 2 ^ k)

/-- `asr(a, k)` (R17): rounds toward minus infinity (division by a positive power of two). -/
def asr (a : Int) (k : Nat) : Int := a / 2 ^ k

/-- `lsr_N(a, k)` (R17). -/
def lsr (n : Nat) (a : Int) (k : Nat) : Int := zext n a / 2 ^ k

/-- `tdiv(a, b)` (R17): truncates toward zero. -/
def tdiv (a b : Int) : Int := a.tdiv b

/-- `sdiv_N(a, b)` (R17). -/
def sdiv (o : Ovf) (n : Nat) (a b : Int) : Except Cause Int :=
  if b = 0 then .error .divideByZero else chk o n (tdiv a b)

/-- `clamp(v, lo, hi)` (R17). -/
def clamp (v lo hi : Int) : Int := if v < lo then lo else if hi < v then hi else v

end Sys2Proof.Machine
end

