-- ==== Sys2Proof/Machine/Operands.lean ====
section
/-!
DEFINITION. How each operation reads its operands: which operand registers (R84), the fields of the two fixed-point
kinds (R111, R112), the coefficient index and the types of the coefficient entries (R150).
-/

namespace Sys2Proof.Machine

/-- The operations that read `OPA`: every one (R84). -/
def readsOpa : Instr → Bool
  | .tcomp    => true
  | .pcomp    => true
  | .hcomp    => true
  | .fxnew10  => true
  | .fxint10  => true
  | .fxfrac10 => true
  | .fxdiv10  => true
  | .fxnew8   => true
  | .fxint8   => true
  | .fxfrac8  => true
  | .fxdiv8   => true
  | .wrcal    => true
  | .rdcal    => true

/-- The operations that read `OPB` (R84). -/
def readsOpb : Instr → Bool
  | .tcomp    => false
  | .pcomp    => true
  | .hcomp    => true
  | .fxnew10  => true
  | .fxint10  => false
  | .fxfrac10 => false
  | .fxdiv10  => true
  | .fxnew8   => true
  | .fxint8   => false
  | .fxfrac8  => false
  | .fxdiv8   => true
  | .wrcal    => true
  | .rdcal    => false

/-- The integer field of an FX10 word, bits 31:10 (R111). -/
def fx10Integer (w : Word) : BitVec 22 := w.extractLsb' 10 22

/-- The fraction field of an FX10 word, bits 9:0 (R111). -/
def fx10Fraction (w : Word) : BitVec 10 := w.extractLsb' 0 10

/-- The integer field of an FX8 word, bits 31:8 (R112). -/
def fx8Integer (w : Word) : BitVec 24 := w.extractLsb' 8 24

/-- The fraction field of an FX8 word, bits 7:0 (R112). -/
def fx8Fraction (w : Word) : BitVec 8 := w.extractLsb' 0 8

/-- The width and signedness of a coefficient entry (R150). -/
structure CalType where
  width : Nat
  signed : Bool
  deriving DecidableEq, Repr

/-- The least integer of a type (R150). -/
def CalType.least (t : CalType) : Int := if t.signed then -2 ^ (t.width - 1) else 0

/-- The greatest integer of a type (R150). -/
def CalType.greatest (t : CalType) : Int := if t.signed then 2 ^ (t.width - 1) - 1 else 2 ^ t.width - 1

/-- The integer of the type that the low bits of a word give (R153): `sext_W` for a signed entry, else `zext_W`. -/
def CalType.ofWord (t : CalType) (w : Word) : Int :=
  if t.signed then sext t.width (u32 w) else zext t.width (u32 w)

/-- The type of each coefficient entry, `dig_t1..3`, `dig_p1..9`, `dig_h1..6` in index order (R40, R150). The widths
and signs are general knowledge, which the spec adopts (R150, D23; UNVERIFIED, log 12). -/
def calTypes : Vector CalType 18 :=
  #v[⟨16, false⟩, ⟨16, true⟩, ⟨16, true⟩,
     ⟨16, false⟩, ⟨16, true⟩, ⟨16, true⟩, ⟨16, true⟩, ⟨16, true⟩, ⟨16, true⟩, ⟨16, true⟩, ⟨16, true⟩, ⟨16, true⟩,
     ⟨8, false⟩, ⟨16, true⟩, ⟨8, false⟩, ⟨16, true⟩, ⟨16, true⟩, ⟨8, true⟩]

/-- The coefficient index an operand word names (R153, R154): read `u32`, BadIndex above 17. -/
def calIndex (w : Word) : Except Cause (Fin 18) :=
  if h : u32 w < 18 then .ok ⟨u32 w, h⟩ else .error .badIndex

/-- The entries TCOMP reads (R41). -/
def tcompEntries : List (Fin 18) := [0, 1, 2]

/-- The entries PCOMP reads (R41). -/
def pcompEntries : List (Fin 18) := [3, 4, 5, 6, 7, 8, 9, 10, 11]

/-- The entries HCOMP reads (R41). -/
def hcompEntries : List (Fin 18) := [12, 13, 14, 15, 16, 17]

end Sys2Proof.Machine
end

