-- ==== Sys2Proof/Machine/Ops.lean ====
section
/-!
DEFINITION. The named operations on the state: writing a register (R18), recording a fault (R234, R235), engine reset
(R260), answering a host read (R65), and the frame every command runs in (R85).
-/

namespace Sys2Proof.Machine

/-- The outcome of one step of this machine. -/
abbrev Result := Host.Outcome State Fault Refusal

/-- TAKING A FAULT (R234, R235, R239): the first since reset sets FAULT and FCODE and changes nothing else; while FAULT
is set no rule raises one. There is no vector, no saved pc and no mode (R239), and no return but reset (R240). -/
def State.raise (s : State) (c : Cause) : State :=
  if s.fault then s else { s with fault := true, fcode := c.code }

/-- Engine reset (R260, R43), the only way out of the faulted state (R240). The parameters are the hardware's, and the
events to come, the words already answered and the draws are not the engine's state (log 9). -/
def State.engineReset (s : State) : State :=
  { State.powerOn s.params with inputs := s.inputs, answers := s.answers, draws := s.draws }

/-- `x[RES0] <- v` (R18). -/
def State.setRes0 (s : State) (v : Word) : State := { s with res0 := v, wRes0 := true }

/-- `x[RES1] <- v` (R18). -/
def State.setRes1 (s : State) (v : Word) : State := { s with res1 := v, wRes1 := true }

/-- `x[OPA] <- v` by the host (R31, R64). -/
def State.setOpa (s : State) (v : Word) : State := { s with opa := v, wOpa := true }

/-- `x[OPB] <- v` by the host (R31, R64). -/
def State.setOpb (s : State) (v : Word) : State := { s with opb := v, wOpb := true }

/-- `CAL[k] <- v; CALW[k] <- 1` (R153); `CALMASK[k]` is `CALW[k]` (R38). -/
def State.setCal (s : State) (k : Fin 18) (v : Int) : State :=
  { s with cal := s.cal.set k v, calw := s.calw.set k true }

/-- The window answers a host read with `v` (R65). -/
def State.answer (s : State) (v : Word) : State := { s with answers := s.answers ++ [v] }

/-- The window answers a faulting host read: an unspecified word, a fresh draw (R65, R233, U6). -/
def State.answerFree (s : State) : State :=
  { s with answers := s.answers ++ [Config.freeWord s.draws], draws := s.draws + 1 }

/-- A host read that faults records its cause and returns an unspecified word (R65, R233, R235). -/
def State.faultingRead (s : State) (c : Cause) : State := (s.raise c).answerFree

/-- How an operation's own rule ends (R18, R239): with the state it leaves, or with its fault and no other effect. -/
def State.settle (s : State) (r : Except Cause State) : Result :=
  match r with
  | .ok t    => .next t
  | .error c => .next (s.raise c)

/-- One command after its decoding (R85): nothing while halted (R39); OperandUnwritten for `OPA`, then for `OPB`, where
the operation reads it (R84, R237); then the operation's own rule, whose `raise` ends it with no other effect (R239). -/
def State.command (s : State) (i : Instr) (body : State → Except Cause State) : Result :=
  if s.fault then .next s
  else if readsOpa i && !s.wOpa then .next (s.raise .operandUnwritten)
  else if readsOpb i && !s.wOpb then .next (s.raise .operandUnwritten)
  else s.settle (body s)

/-- Coefficient readiness (R180): CalUnwritten for the first of the entries, in the order given, that was never
written. -/
def State.needCal (s : State) (ks : List (Fin 18)) : Except Cause Unit :=
  match ks.find? (fun k => !s.calw[k]) with
  | some _ => .error .calUnwritten
  | none   => .ok ()

end Sys2Proof.Machine
end

