-- ==== Sys2Proof/Machine/Coefficients.lean ====
section
/-!
DEFINITION. The operations on the coefficient file, WRCAL and RDCAL (41_coefficients.md section 2).
-/

namespace Sys2Proof.Machine

/-- What WRCAL does once its operands are there (R153): the low bits of `OPB`, extended as the entry's type says. -/
def wrcalBody (s : State) : Except Cause State := do
  let k ← calIndex s.opa
  .ok (s.setCal k (calTypes[k].ofWord s.opb))

/-- WRCAL (R153). -/
def execWrcal (s : State) : Result := s.command .wrcal wrcalBody

/-- What RDCAL does once its operand is there (R154). -/
def rdcalBody (s : State) : Except Cause State := do
  let k ← calIndex s.opa
  s.needCal [k]
  .ok (s.setRes0 (word s.cal[k]))

/-- RDCAL (R154). -/
def execRdcal (s : State) : Result := s.command .rdcal rdcalBody

end Sys2Proof.Machine
end

