-- ==== Sys2Proof/Machine/Compensation.lean ====
section
/-!
DEFINITION. The compensation functions and their operations TCOMP, PCOMP, HCOMP (42_compensation.md). One arithmetic
step a line, in the order the rules evaluate, which under `OVF = fault` fixes the step that overflows first.
-/

namespace Sys2Proof.Machine

/-- The coefficient file as the compensation functions read it (R40, R151). -/
abbrev Coeffs := Vector Int 18

/-- `dig_t1` (R150). -/
def Coeffs.digT1 (cal : Coeffs) : Int := cal[0]
/-- `dig_t2` (R150). -/
def Coeffs.digT2 (cal : Coeffs) : Int := cal[1]
/-- `dig_t3` (R150). -/
def Coeffs.digT3 (cal : Coeffs) : Int := cal[2]
/-- `dig_p1` (R150). -/
def Coeffs.digP1 (cal : Coeffs) : Int := cal[3]
/-- `dig_p2` (R150). -/
def Coeffs.digP2 (cal : Coeffs) : Int := cal[4]
/-- `dig_p3` (R150). -/
def Coeffs.digP3 (cal : Coeffs) : Int := cal[5]
/-- `dig_p4` (R150). -/
def Coeffs.digP4 (cal : Coeffs) : Int := cal[6]
/-- `dig_p5` (R150). -/
def Coeffs.digP5 (cal : Coeffs) : Int := cal[7]
/-- `dig_p6` (R150). -/
def Coeffs.digP6 (cal : Coeffs) : Int := cal[8]
/-- `dig_p7` (R150). -/
def Coeffs.digP7 (cal : Coeffs) : Int := cal[9]
/-- `dig_p8` (R150). -/
def Coeffs.digP8 (cal : Coeffs) : Int := cal[10]
/-- `dig_p9` (R150). -/
def Coeffs.digP9 (cal : Coeffs) : Int := cal[11]
/-- `dig_h1` (R150). -/
def Coeffs.digH1 (cal : Coeffs) : Int := cal[12]
/-- `dig_h2` (R150). -/
def Coeffs.digH2 (cal : Coeffs) : Int := cal[13]
/-- `dig_h3` (R150). -/
def Coeffs.digH3 (cal : Coeffs) : Int := cal[14]
/-- `dig_h4` (R150). -/
def Coeffs.digH4 (cal : Coeffs) : Int := cal[15]
/-- `dig_h5` (R150). -/
def Coeffs.digH5 (cal : Coeffs) : Int := cal[16]
/-- `dig_h6` (R150). -/
def Coeffs.digH6 (cal : Coeffs) : Int := cal[17]

/-- `t_comp_fine(adc_t)` (R183), with the grouping that 90_conflicts.md C1 settles. -/
def tCompFine (o : Ovf) (cal : Coeffs) (adcT : Int) : Except Cause Int := do
  let a ← sub o 32 (asr adcT 3) (shl 32 cal.digT1 1)
  let m1 ← mul o 32 a cal.digT2
  let var1 := asr m1 11
  let b ← sub o 32 (asr adcT 4) cal.digT1
  let m2 ← mul o 32 b b
  let m3 ← mul o 32 (asr m2 12) cal.digT3
  let var2 := asr m3 14
  add o 32 var1 var2

/-- `t_comp_centi(t_fine)` (R184). -/
def tCompCenti (o : Ovf) (tFine : Int) : Except Cause Int := do
  let m ← mul o 32 tFine 5
  let r ← add o 32 m 128
  .ok (asr r 8)

/-- The first half of `p_comp` (R190), to the normalisation term: answers `(v1, v2)`. -/
def pCompNorm (o : Ovf) (cal : Coeffs) (tFine : Int) : Except Cause (Int × Int) := do
  let v1 ← sub o 64 tFine 128000
  let m1 ← mul o 64 v1 v1
  let v2 ← mul o 64 m1 cal.digP6
  let m2 ← mul o 64 v1 cal.digP5
  let v2 ← add o 64 v2 (shl 64 m2 17)
  let v2 ← add o 64 v2 (shl 64 cal.digP4 35)
  let m3 ← mul o 64 v1 v1
  let m4 ← mul o 64 m3 cal.digP3
  let m5 ← mul o 64 v1 cal.digP2
  let v1 ← add o 64 (asr m4 8) (shl 64 m5 12)
  let a1 ← add o 64 (shl 64 1 47) v1
  let m6 ← mul o 64 a1 cal.digP1
  .ok (asr m6 33, v2)

/-- The second half of `p_comp` (R190), from the normalisation term on. -/
def pCompScale (o : Ovf) (cal : Coeffs) (v1 v2 adcP : Int) : Except Cause Int := do
  let p ← sub o 64 1048576 adcP
  let d ← sub o 64 (shl 64 p 31) v2
  let n ← mul o 64 d 3125
  let p ← sdiv o 64 n v1
  let m1 ← mul o 64 cal.digP9 (asr p 13)
  let m2 ← mul o 64 m1 (asr p 13)
  let v1 := asr m2 25
  let m3 ← mul o 64 cal.digP8 p
  let v2 := asr m3 19
  let a1 ← add o 64 p v1
  let a2 ← add o 64 a1 v2
  add o 64 (asr a2 8) (shl 64 cal.digP7 4)

/-- `p_comp(t_fine, adc_p)` (R190), with the zero short-circuit (R191). The sequence is general knowledge, which the
spec adopts (R190, D22; UNVERIFIED, log 11). -/
def pComp (o : Ovf) (cal : Coeffs) (tFine adcP : Int) : Except Cause Int := do
  let v ← pCompNorm o cal tFine
  if v.1 = 0 then .ok 0 else pCompScale o cal v.1 v.2 adcP

/-- `h_comp_pre(t_fine, adc_h)` (R200), the accumulator before the clamp. The sequence is general knowledge, which the
spec adopts (R200, D22; UNVERIFIED, log 11). -/
def hCompPre (o : Ovf) (cal : Coeffs) (tFine adcH : Int) : Except Cause Int := do
  let v ← sub o 32 tFine 76800
  let x1 ← sub o 32 (shl 32 adcH 14) (shl 32 cal.digH4 20)
  let m1 ← mul o 32 cal.digH5 v
  let x1 ← sub o 32 x1 m1
  let x1 ← add o 32 x1 16384
  let x1 := asr x1 15
  let m2 ← mul o 32 v cal.digH6
  let y1 := asr m2 10
  let m3 ← mul o 32 v cal.digH3
  let y2 ← add o 32 (asr m3 11) 32768
  let m4 ← mul o 32 y1 y2
  let y3 ← add o 32 (asr m4 10) 2097152
  let m5 ← mul o 32 y3 cal.digH2
  let y4 ← add o 32 m5 8192
  let y4 := asr y4 14
  let v ← mul o 32 x1 y4
  let z := asr v 15
  let m6 ← mul o 32 z z
  let m7 ← mul o 32 (asr m6 7) cal.digH1
  sub o 32 v (asr m7 4)

/-- The bound of the humidity clamp, 100 % in the accumulator's scale (R201). -/
def humidityBound : Int := 419430400

/-- What TCOMP does once its operand is there (R185): both results are written only if nothing raised. -/
def tcompBody (s : State) : Except Cause State := do
  s.needCal tcompEntries
  let tf ← tCompFine s.params.ovf s.cal (s32 s.opa)
  let tc ← tCompCenti s.params.ovf tf
  .ok ((s.setRes0 (word tf)).setRes1 (word tc))

/-- TCOMP (R185). -/
def execTcomp (s : State) : Result := s.command .tcomp tcompBody

/-- What PCOMP does once its operands are there (R193, R192). -/
def pcompBody (s : State) : Except Cause State := do
  s.needCal pcompEntries
  let p ← pComp s.params.ovf s.cal (s32 s.opb) (s32 s.opa)
  .ok (s.setRes0 (word p))

/-- PCOMP (R193). -/
def execPcomp (s : State) : Result := s.command .pcomp pcompBody

/-- What HCOMP does once its operands are there (R203, R201, R202). -/
def hcompBody (s : State) : Except Cause State := do
  s.needCal hcompEntries
  let v ← hCompPre s.params.ovf s.cal (s32 s.opb) (s32 s.opa)
  .ok (s.setRes0 (word (asr (clamp v 0 humidityBound) 12)))

/-- HCOMP (R203). -/
def execHcomp (s : State) : Result := s.command .hcomp hcompBody

end Sys2Proof.Machine
end

