-- ==== Sys2Proof/Machine/FixedPoint.lean ====
section
/-!
DEFINITION. The two fixed-point kinds and their eight operations (40_fixed_point.md). None depends on `OVF` or reads
the coefficient file.
-/

namespace Sys2Proof.Machine

/-- The real value of an FX10 word, `s32(w) / 2^10` (R19, R111). -/
def fx10Value (w : Word) : ℚ := (s32 w : ℚ) / 2 ^ 10

/-- The real value of an FX8 word, `u32(w) / 2^8` (R19, R112). -/
def fx8Value (w : Word) : ℚ := (u32 w : ℚ) / 2 ^ 8

/-- The FX10 word of an integer and a fraction, `{zext_22(i), zext_10(f)}` (R115): higher bits of both are lost. -/
def fx10New (i f : Word) : Word := i.extractLsb' 0 22 ++ f.extractLsb' 0 10

/-- The FX8 word of an integer and a fraction, `{zext_24(i), zext_8(f)}` (R120): higher bits of both are lost. -/
def fx8New (i f : Word) : Word := i.extractLsb' 0 24 ++ f.extractLsb' 0 8

/-- The FX10 quotient (R118): truncates toward zero and keeps the low 32 bits; DivideByZero for a zero divisor. -/
def fx10Div (a b : Word) : Except Cause Word :=
  if s32 b = 0 then .error .divideByZero else .ok (word (tdiv (s32 a * 2 ^ 10) (s32 b)))

/-- The FX8 quotient (R123): the operands are unsigned (D20). -/
def fx8Div (a b : Word) : Except Cause Word :=
  if u32 b = 0 then .error .divideByZero else .ok (word (u32 a * 2 ^ 8 / u32 b : Nat))

/-- What FXNEW10 does once its operands are there (R115). -/
def fxnew10Body (s : State) : Except Cause State :=
  .ok (s.setRes0 (fx10New s.opa s.opb))

/-- FXNEW10 (R115). -/
def execFxnew10 (s : State) : Result := s.command .fxnew10 fxnew10Body

/-- What FXINT10 does once its operands are there (R116): the integer field, sign-extended. -/
def fxint10Body (s : State) : Except Cause State :=
  .ok (s.setRes0 ((fx10Integer s.opa).signExtend 32))

/-- FXINT10 (R116). -/
def execFxint10 (s : State) : Result := s.command .fxint10 fxint10Body

/-- What FXFRAC10 does once its operands are there (R117): the fraction field, zero-extended. -/
def fxfrac10Body (s : State) : Except Cause State :=
  .ok (s.setRes0 ((fx10Fraction s.opa).setWidth 32))

/-- FXFRAC10 (R117). -/
def execFxfrac10 (s : State) : Result := s.command .fxfrac10 fxfrac10Body

/-- What FXDIV10 does once its operands are there (R118). -/
def fxdiv10Body (s : State) : Except Cause State := do
  let q ← fx10Div s.opa s.opb
  .ok (s.setRes0 q)

/-- FXDIV10 (R118). -/
def execFxdiv10 (s : State) : Result := s.command .fxdiv10 fxdiv10Body

/-- What FXNEW8 does once its operands are there (R120). -/
def fxnew8Body (s : State) : Except Cause State :=
  .ok (s.setRes0 (fx8New s.opa s.opb))

/-- FXNEW8 (R120). -/
def execFxnew8 (s : State) : Result := s.command .fxnew8 fxnew8Body

/-- What FXINT8 does once its operands are there (R121): the integer field, zero-extended. -/
def fxint8Body (s : State) : Except Cause State :=
  .ok (s.setRes0 ((fx8Integer s.opa).setWidth 32))

/-- FXINT8 (R121). -/
def execFxint8 (s : State) : Result := s.command .fxint8 fxint8Body

/-- What FXFRAC8 does once its operands are there (R122): the fraction field, zero-extended. -/
def fxfrac8Body (s : State) : Except Cause State :=
  .ok (s.setRes0 ((fx8Fraction s.opa).setWidth 32))

/-- FXFRAC8 (R122). -/
def execFxfrac8 (s : State) : Result := s.command .fxfrac8 fxfrac8Body

/-- What FXDIV8 does once its operands are there (R123). -/
def fxdiv8Body (s : State) : Except Cause State := do
  let q ← fx8Div s.opa s.opb
  .ok (s.setRes0 q)

/-- FXDIV8 (R123). -/
def execFxdiv8 (s : State) : Result := s.command .fxdiv8 fxdiv8Body

end Sys2Proof.Machine
end

