-- ==== Sys2Proof/Machine/Dispatch.lean ====
section
/-!
DEFINITION. The dispatch of R85: one arm per operation of R83, each one call of its meaning.
-/

namespace Sys2Proof.Machine

/-- The meaning of each operation (R83, R85). -/
def exec (i : Instr) (s : State) : Host.Outcome State Fault Refusal :=
  match i with
  | .tcomp => Sys2Proof.Machine.execTcomp s
  | .pcomp => Sys2Proof.Machine.execPcomp s
  | .hcomp => Sys2Proof.Machine.execHcomp s
  | .fxnew10 => Sys2Proof.Machine.execFxnew10 s
  | .fxint10 => Sys2Proof.Machine.execFxint10 s
  | .fxfrac10 => Sys2Proof.Machine.execFxfrac10 s
  | .fxdiv10 => Sys2Proof.Machine.execFxdiv10 s
  | .fxnew8 => Sys2Proof.Machine.execFxnew8 s
  | .fxint8 => Sys2Proof.Machine.execFxint8 s
  | .fxfrac8 => Sys2Proof.Machine.execFxfrac8 s
  | .fxdiv8 => Sys2Proof.Machine.execFxdiv8 s
  | .wrcal => Sys2Proof.Machine.execWrcal s
  | .rdcal => Sys2Proof.Machine.execRdcal s

end Sys2Proof.Machine
end

