-- ==== Sys2Proof/Machine/Window.lean ====
section
/-!
DEFINITION. The register window: what each host access does (R34, R61 to R66), and the other events of the host's side.
-/

namespace Sys2Proof.Machine

/-- `perform_command(c)` (R34, R85): IllegalOp for a word that decodes to no operation (R86, R231), else the operation.
Both have no effect while halted: `raise` by R235, `exec` by R39. -/
def performCommand (s : State) (c : Word) : Result :=
  match decode c with
  | .ok i    => exec i s
  | .error _ => .next (s.raise .illegalOp)

/-- A host write of an operand register (R64): no effect while halted (R39). -/
def hostStore (s t : State) : State := if s.fault then s else t

/-- A word write that reached a window register (R61, R64). -/
def writeRegister (s : State) (r : WinReg) (v : Word) : Result :=
  match r with
  | .cmd      => performCommand s v
  | .opa      => .next (hostStore s (s.setOpa v))
  | .opb      => .next (hostStore s (s.setOpb v))
  | .res0     => .next (s.raise .badAccess)
  | .res1     => .next (s.raise .badAccess)
  | .status   => .next (s.raise .badAccess)
  | .calmask  => .next (s.raise .badAccess)
  | .reserved => .next (s.raise .badAccess)

/-- A read of a register that has a written bit (R65). -/
def readWritten (s : State) (written : Bool) (v : Word) : State :=
  if written then s.answer v else s.faultingRead .unwrittenRead

/-- A word read that reached a window register (R61, R65). -/
def readRegister (s : State) (r : WinReg) : State :=
  match r with
  | .cmd      => s.faultingRead .badAccess
  | .opa      => readWritten s s.wOpa s.opa
  | .opb      => readWritten s s.wOpb s.opb
  | .res0     => readWritten s s.wRes0 s.res0
  | .res1     => readWritten s s.wRes1 s.res1
  | .status   => s.answer s.status
  | .calmask  => s.answer s.calmask
  | .reserved => s.faultingRead .badAccess

/-- One host access (R62, R64, R65). An access that starts outside the window is not the engine's (log 4); inside it,
an access of another width or alignment is a BadAccess (R62), checked before anything else (R237). -/
def performAccess (s : State) (a : Access) : Result :=
  match a with
  | .read addr width =>
    match windowOffset s.params.engineBase addr with
    | none => .fault .outsideWindow
    | some off =>
      match accessTarget off width with
      | none   => .next (s.faultingRead .badAccess)
      | some r => .next (readRegister s r)
  | .write addr width v =>
    match windowOffset s.params.engineBase addr with
    | none => .fault .outsideWindow
    | some off =>
      match accessTarget off width with
      | none   => .next (s.raise .badAccess)
      | some r => writeRegister s r v

/-- One event of the host's side (R36, R67, R260). -/
def performEvent (s : State) (e : HostEvent) : Result :=
  match e with
  | .access a       => performAccess s a
  | .reset          => .next s.engineReset
  | .concurrent _ _ => .refused .concurrentAgents

/-- The host's next event and the state with that event taken off the ones to come. -/
def State.takeInput (s : State) : Option (HostEvent × State) :=
  match s.inputs with
  | []        => none
  | e :: rest => some (e, { s with inputs := rest })

/-- The state with one more event, which comes next. -/
def State.present (s : State) (e : HostEvent) : State := { s with inputs := e :: s.inputs }

/-- The state in which the host's next access is the word write of a command to `CMD` (R34, R61). -/
def State.presentCommand (s : State) (c : Word) : State :=
  s.present (.access (.write (s.params.engineBase + WinReg.cmd.offset) 4 c))

end Sys2Proof.Machine
end

