-- ==== Sys2Proof/Machine/Step.lean ====
section
/-!
DEFINITION. One step of the machine: the host's next event takes its whole effect (R36, R66).
-/

namespace Sys2Proof.Machine

/-- One step. The host is the sequencer (R36): the engine takes the next event, and with none to come it does nothing. -/
def step (s : State) : Host.Outcome State Fault Refusal :=
  match s.takeInput with
  | none        => .next s
  | some (e, t) => performEvent t e

/-- The state whose next step runs the command of the opcode table's bits `w`: the host's next access writes that word
to `CMD` (log 1). Bits that make no 32-bit command word leave the state as it is. -/
def State.withFetchWord (s : State) (nbits w : Nat) : State :=
  match tableWord nbits w with
  | none   => s
  | some c => s.presentCommand c

end Sys2Proof.Machine
end

