-- ==== Sys2Proof/Machine/HostDecode.lean ====
section
/-!
DEFINITION. The host-side decoding of the sensor's bytes into the engine's inputs (41_coefficients.md section 3). These
are no operations of the engine and touch no state. The byte positions are general knowledge, which the spec adopts
(R161, R162, R166, D27, D28; UNVERIFIED, log 12).
-/

namespace Sys2Proof.Machine

/-- The byte the host has read at each sensor address. The sensor is outside the engine (R8(c)): this is an argument of the
functions below, never state (log 20). -/
abbrev SensorBytes := Nat → Byte

/-- The sensor addresses of a block of `n` bytes from `base` on, in the order of its entries (R160, R165). -/
def blockAddresses (base n : Nat) : List Nat := (List.range n).map (base + ·)

/-- A block of `n` bytes from `base` on: entry `i` is the byte at `base + i` (R160, R165). -/
def readBlock (sensor : SensorBytes) (base n : Nat) : Vector Byte n := Vector.ofFn fun i => sensor (base + i.val)

/-- The sensor address of the identity register (R3). -/
def identityAddress : Nat := 0xD0

/-- The first sensor address of calibration block 1 (R160). -/
def calBlock1Base : Nat := 0x88

/-- The first sensor address of calibration block 2 (R160). -/
def calBlock2Base : Nat := 0xE1

/-- The first sensor address of the raw measurement block (R165). -/
def rawBlockBase : Nat := 0xF7

/-- Calibration block 1, `B[0..25]` (R160). -/
abbrev CalBlock1 := Vector Byte 26

/-- Calibration block 2, `C[0..15]` (R160). -/
abbrev CalBlock2 := Vector Byte 16

/-- The raw measurement block, `M[0..7]` (R165). -/
abbrev RawBlock := Vector Byte 8

/-- `B[i]` is the byte at sensor address `0x88 + i`, up to 0xA1 (R160). -/
def readCalBlock1 (sensor : SensorBytes) : CalBlock1 := readBlock sensor calBlock1Base 26

/-- `C[i]` is the byte at sensor address `0xE1 + i`, up to 0xF0 (R160). -/
def readCalBlock2 (sensor : SensorBytes) : CalBlock2 := readBlock sensor calBlock2Base 16

/-- `M[i]` is the byte at sensor address `0xF7 + i`, up to 0xFE (R165): pressure at 0xF7 to 0xF9, temperature at 0xFA to
0xFC, humidity at 0xFD and 0xFE. -/
def readRawBlock (sensor : SensorBytes) : RawBlock := readBlock sensor rawBlockBase 8

/-- The identity byte the host expects (R3, R164). -/
def expectedIdentity : Byte := 0x60

/-- The host's identity check (R164): only the expected byte lets the calibration be loaded. -/
def identityOk (id : Byte) : Bool := id == expectedIdentity

/-- The sensor addresses the host reads at bring-up (R164, R262): the identity register first, and no other after an
identity byte that is not the expected one. That block 1 is read before block 2, and each in ascending order, is the
model's (DESIGN CHOICE, log 21): R160 and R262 give no order. -/
def bringUpAddresses (sensor : SensorBytes) : List Nat :=
  identityAddress ::
    (if identityOk (sensor identityAddress) then blockAddresses calBlock1Base 26 ++ blockAddresses calBlock2Base 16
     else [])

/-- `le16(lo, hi)` (R160). -/
def le16 (lo hi : Byte) : Int := lo.toNat + 256 * hi.toNat

/-- `dig_h4` of block 2 (R162): byte 3 is bits 11:4, the low nibble of byte 4 is bits 3:0. -/
def decodeDigH4 (blk2 : CalBlock2) : Int := sext 12 ((blk2[3].toNat : Int) * 16 + (blk2[4].toNat : Int) % 16)

/-- `dig_h5` of block 2 (R162): bits 15:4 of the little-endian word at bytes 4 and 5. -/
def decodeDigH5 (blk2 : CalBlock2) : Int := asr (sext 16 (le16 blk2[4] blk2[5])) 4

/-- The 18 coefficients of the two calibration blocks, in index order (R150, R161, R162). -/
def decodeCalibration (blk1 : CalBlock1) (blk2 : CalBlock2) : Vector Int 18 :=
  #v[le16 blk1[0] blk1[1], sext 16 (le16 blk1[2] blk1[3]), sext 16 (le16 blk1[4] blk1[5]),
     le16 blk1[6] blk1[7], sext 16 (le16 blk1[8] blk1[9]), sext 16 (le16 blk1[10] blk1[11]), sext 16 (le16 blk1[12] blk1[13]),
     sext 16 (le16 blk1[14] blk1[15]), sext 16 (le16 blk1[16] blk1[17]), sext 16 (le16 blk1[18] blk1[19]),
     sext 16 (le16 blk1[20] blk1[21]), sext 16 (le16 blk1[22] blk1[23]),
     blk1[25].toNat, sext 16 (le16 blk2[0] blk2[1]), blk2[2].toNat, decodeDigH4 blk2, decodeDigH5 blk2, sext 8 blk2[6].toNat]

/-- A 20-bit raw code, most significant byte first, the low nibble of the third byte dropped (R166). -/
def raw20 (hi mid lo : Byte) : Nat := hi.toNat * 2 ^ 12 + mid.toNat * 2 ^ 4 + lo.toNat / 2 ^ 4

/-- `adc_p` (R166). -/
def decodeAdcP (m : RawBlock) : Nat := raw20 m[0] m[1] m[2]

/-- `adc_t` (R166). -/
def decodeAdcT (m : RawBlock) : Nat := raw20 m[3] m[4] m[5]

/-- `adc_h` (R166). -/
def decodeAdcH (m : RawBlock) : Nat := m[6].toNat * 2 ^ 8 + m[7].toNat

end Sys2Proof.Machine
end

