-- ==== Sys2Proof/Safety.lean ====
section
/-!
DEFINITION. The states a run from reset can be in, as far as the rules promise it, and what makes an operation ready to
run.
-/

namespace Sys2Proof.Machine

/-- Does the integer fit the entry's type (R150)? -/
abbrev CalType.Holds (t : CalType) (v : Int) : Prop := t.least ≤ v ∧ v ≤ t.greatest

/-- Every coefficient entry holds an integer of its type (R40, R150). -/
abbrev State.CalTyped (s : State) : Prop := ∀ k : Fin 18, calTypes[k].Holds s.cal[k]

/-- `FCODE` is 0x00 while `FAULT` is 0, and one of the codes 0x01 to 0x08 once a fault is recorded (R35, R230). -/
abbrev State.StatusLegal (s : State) : Prop :=
  (s.fault = false → s.fcode = 0) ∧ (s.fault = true → 1 ≤ s.fcode.toNat ∧ s.fcode.toNat ≤ 8)

/-- The invariant of the machine. -/
abbrev State.Inv (s : State) : Prop := s.StatusLegal ∧ s.CalTyped

/-- The engine is not halted and the operand registers the operation reads are written (R85). -/
abbrev State.Ready (s : State) (i : Instr) : Prop :=
  s.fault = false ∧ (readsOpa i = true → s.wOpa = true) ∧ (readsOpb i = true → s.wOpb = true)

/-- The coefficient entries are written (R180). -/
abbrev State.CalReady (s : State) (ks : List (Fin 18)) : Prop := ∀ k ∈ ks, s.calw[k] = true

/-- The coefficient entries an operation reads, with its operand `OPA` (R41, R154). -/
def calEntriesRead (i : Instr) (opa : Word) : List (Fin 18) :=
  match i with
  | .tcomp    => tcompEntries
  | .pcomp    => pcompEntries
  | .hcomp    => hcompEntries
  | .rdcal    => if h : opa.toNat < 18 then [⟨opa.toNat, h⟩] else []
  | .fxnew10  => []
  | .fxint10  => []
  | .fxfrac10 => []
  | .fxdiv10  => []
  | .fxnew8   => []
  | .fxint8   => []
  | .fxfrac8  => []
  | .fxdiv8   => []
  | .wrcal    => []

/-- Two states differ at most in the contents of registers and entries whose written bit is clear, which are never a
value (R37, U7). -/
def State.SameVisible (s t : State) : Prop :=
  s.wOpa = t.wOpa ∧ s.wOpb = t.wOpb ∧ s.wRes0 = t.wRes0 ∧ s.wRes1 = t.wRes1 ∧ s.calw = t.calw ∧
  s.fault = t.fault ∧ s.fcode = t.fcode ∧ s.params = t.params ∧
  s.inputs = t.inputs ∧ s.answers = t.answers ∧ s.draws = t.draws ∧
  (s.wOpa = true → s.opa = t.opa) ∧ (s.wOpb = true → s.opb = t.opb) ∧
  (s.wRes0 = true → s.res0 = t.res0) ∧ (s.wRes1 = true → s.res1 = t.res1) ∧
  (∀ k : Fin 18, s.calw[k] = true → s.cal[k] = t.cal[k])

end Sys2Proof.Machine
end

