-- ==== Sys2Proof/WellFormed.lean ====
section
/-!
DEFINITION. What is well formed: every instruction (it has no field to check, R81), and the host accesses the window
admits (R61, R62).
-/

namespace Sys2Proof

/-- Every instruction is well formed: the command word has no immediate, register or mode field (R81). -/
def Instr.wellFormed (_ : Instr) : Bool := true

/-- Does the window map admit a host read of the register (R61)? -/
def Machine.WinReg.readable : Machine.WinReg → Bool
  | .cmd      => false
  | .opa      => true
  | .opb      => true
  | .res0     => true
  | .res1     => true
  | .status   => true
  | .calmask  => true
  | .reserved => false

/-- Does the window map admit a host write of the register (R61)? -/
def Machine.WinReg.writable : Machine.WinReg → Bool
  | .cmd      => true
  | .opa      => true
  | .opb      => true
  | .res0     => false
  | .res1     => false
  | .status   => false
  | .calmask  => false
  | .reserved => false

/-- A well-formed access (R61, R62): inside the window, one word wide, at a multiple of 4, in a direction the window
map admits. Every other access inside the window is a BadAccess. -/
def Machine.Access.wellFormed (engineBase : Nat) : Machine.Access → Bool
  | .read addr width =>
    match Machine.windowOffset engineBase addr with
    | none => false
    | some off =>
      match Machine.accessTarget off width with
      | none => false
      | some r => r.readable
  | .write addr width _ =>
    match Machine.windowOffset engineBase addr with
    | none => false
    | some off =>
      match Machine.accessTarget off width with
      | none => false
      | some r => r.writable

end Sys2Proof
end

