-- ==== Sys2Proof/Certificates/Slice0/Obligations.lean ====
section
/-!
DEFINITION. The statements for the provers, each from numbered rules of the spec, and the formulas they are stated in.
-/

namespace Sys2Proof.Statement

open Sys2Proof Sys2Proof.Machine

/-- The state in which the host has written both operand registers (R31). -/
def withOperands (s : State) (a b : Word) : State := { s with opa := a, opb := b, wOpa := true, wOpb := true }

/-- The state with one fault recorded and nothing else changed (R234). -/
def faulted (s : State) (code : BitVec 8) : State := { s with fault := true, fcode := code }

/-- The twelve engine fields and the parameters are the same (10_state.md); the host's side of the bus may differ. -/
def SameEngine (s t : State) : Prop :=
  s.opa = t.opa ∧ s.opb = t.opb ∧ s.res0 = t.res0 ∧ s.res1 = t.res1 ∧
  s.wOpa = t.wOpa ∧ s.wOpb = t.wOpb ∧ s.wRes0 = t.wRes0 ∧ s.wRes1 = t.wRes1 ∧
  s.cal = t.cal ∧ s.calw = t.calw ∧ s.fault = t.fault ∧ s.fcode = t.fcode ∧ s.params = t.params

/-- One host word read at an offset of the window (R65). -/
def readAt (s : State) (off : Nat) : Result := step (s.present (.access (.read (s.params.engineBase + off) 4)))

/-- One host word write at an offset of the window (R64). -/
def writeAt (s : State) (off : Nat) (v : Word) : Result :=
  step (s.present (.access (.write (s.params.engineBase + off) 4 v)))

/-- A read that succeeds: the word is answered, and nothing else changes (R65, R66). -/
def Answers (s : State) (r : Result) (v : Word) : Prop := r = .next { s with answers := s.answers ++ [v] }

/-- A read that faults: some word is answered; the fault is recorded if it is the first; nothing else of the engine
changes (R65, R233, R235). -/
def AnswersFaulting (s : State) (r : Result) (code : BitVec 8) : Prop :=
  ∃ (x : Word) (n : Nat), r = .next { s with
    fault := true, fcode := if s.fault then s.fcode else code, answers := s.answers ++ [x], draws := n }

/-- The coefficient entries an operation reads, named with its operand `OPA` (R41, R154). -/
abbrev ReadsEntry (i : Instr) (opa : Word) (k : Fin 18) : Prop :=
  (i = .tcomp ∧ k.val < 3) ∨ (i = .pcomp ∧ 3 ≤ k.val ∧ k.val < 12) ∨ (i = .hcomp ∧ 12 ≤ k.val) ∨
  (i = .rdcal ∧ k.val = opa.toNat)

/-- `x` is a 32-bit signed value (R17). -/
abbrev Fits32 (x : Int) : Prop := -2147483648 ≤ x ∧ x < 2147483648

/-- `x` is a 64-bit signed value (R17). -/
abbrev Fits64 (x : Int) : Prop := -9223372036854775808 ≤ x ∧ x < 9223372036854775808

/-- Truncating division, as R17 defines it. -/
def truncDiv (a b : Int) : Int := a.sign * b.sign * ((a.natAbs / b.natAbs : Nat) : Int)

/-- The integer WRCAL stores in an entry, type by type (R150, R153). -/
def storedValue (k : Fin 18) (w : Word) : Int :=
  if k.val = 0 ∨ k.val = 3 then ((w.toNat % 65536 : Nat) : Int)
  else if k.val = 12 ∨ k.val = 14 then ((w.toNat % 256 : Nat) : Int)
  else if k.val = 17 then (w.setWidth 8).toInt
  else (w.setWidth 16).toInt

/-- `t_fine` and the temperature in 32-bit two's-complement machine arithmetic (R183, R184 under `OVF = wrap`). -/
def tempWrap (cal : Vector Int 18) (adcT : BitVec 32) : BitVec 32 × BitVec 32 :=
  let t1 := BitVec.ofInt 32 cal[0]
  let t2 := BitVec.ofInt 32 cal[1]
  let t3 := BitVec.ofInt 32 cal[2]
  let a := adcT.sshiftRight 3 - t1 <<< 1
  let var1 := (a * t2).sshiftRight 11
  let b := adcT.sshiftRight 4 - t1
  let var2 := ((b * b).sshiftRight 12 * t3).sshiftRight 14
  let tFine := var1 + var2
  (tFine, (tFine * 5 + 128).sshiftRight 8)

/-- The exact results of the checked steps of R183 and R184, in their order, then `t_fine` and the temperature. -/
def tempExact (cal : Vector Int 18) (adcT : Int) : List Int × Int × Int :=
  let a := adcT / 8 - cal[0] * 2
  let m1 := a * cal[1]
  let b := adcT / 16 - cal[0]
  let m2 := b * b
  let m3 := m2 / 4096 * cal[2]
  let tFine := m1 / 2048 + m3 / 16384
  let m4 := tFine * 5
  let m5 := m4 + 128
  ([a, m1, b, m2, m3, tFine, m4, m5], tFine, m5 / 256)

/-- The normalisation term `var1` and `v2` of R190 in 64-bit two's-complement machine arithmetic. -/
def presNormWrap (cal : Vector Int 18) (tFine : BitVec 32) : BitVec 64 × BitVec 64 :=
  let p1 := BitVec.ofInt 64 cal[3]
  let p2 := BitVec.ofInt 64 cal[4]
  let p3 := BitVec.ofInt 64 cal[5]
  let p4 := BitVec.ofInt 64 cal[6]
  let p5 := BitVec.ofInt 64 cal[7]
  let p6 := BitVec.ofInt 64 cal[8]
  let v1 := tFine.signExtend 64 - 128000
  let v2 := v1 * v1 * p6 + (v1 * p5) <<< 17 + p4 <<< 35
  let n := (v1 * v1 * p3).sshiftRight 8 + (v1 * p2) <<< 12
  (((1 <<< 47 + n) * p1).sshiftRight 33, v2)

/-- The pressure word in 64-bit two's-complement machine arithmetic (R190, R191, R192 under `OVF = wrap`). -/
def presWrap (cal : Vector Int 18) (tFine adcP : BitVec 32) : BitVec 32 :=
  let p7 := BitVec.ofInt 64 cal[9]
  let p8 := BitVec.ofInt 64 cal[10]
  let p9 := BitVec.ofInt 64 cal[11]
  let nv := presNormWrap cal tFine
  if nv.1 = 0 then 0
  else
    let d := (1048576 - adcP.signExtend 64) <<< 31 - nv.2
    let q := (d * 3125).sdiv nv.1
    let x1 := (p9 * q.sshiftRight 13 * q.sshiftRight 13).sshiftRight 25
    let x2 := (p8 * q).sshiftRight 19
    ((q + x1 + x2).sshiftRight 8 + p7 <<< 4).setWidth 32

/-- The exact results of the checked steps of the first half of R190, then `var1` and `v2`. A left shift loses the bits
shifted out of 64 (R17). -/
def presNormExact (cal : Vector Int 18) (tFine : Int) : List Int × Int × Int :=
  let v1 := tFine - 128000
  let m1 := v1 * v1
  let m2 := m1 * cal[8]
  let m3 := v1 * cal[7]
  let w1 := m2 + (m3 * 2 ^ 17).bmod (2 ^ 64)
  let w2 := w1 + cal[6] * 2 ^ 35
  let m4 := m1 * cal[5]
  let m5 := v1 * cal[4]
  let n1 := m4 / 2 ^ 8 + (m5 * 2 ^ 12).bmod (2 ^ 64)
  let n2 := 2 ^ 47 + n1
  let m6 := n2 * cal[3]
  ([v1, m1, m2, m3, w1, w2, m4, m5, n1, n2, m6], m6 / 2 ^ 33, w2)

/-- The exact results of the checked steps of the second half of R190, then the 64-bit result. -/
def presScaleExact (cal : Vector Int 18) (v1 v2 adcP : Int) : List Int × Int :=
  let p := 1048576 - adcP
  let d := p * 2 ^ 31 - v2
  let n := d * 3125
  let q := truncDiv n v1
  let m1 := cal[11] * (q / 2 ^ 13)
  let m2 := m1 * (q / 2 ^ 13)
  let m3 := cal[10] * q
  let a1 := q + m2 / 2 ^ 25
  let a2 := a1 + m3 / 2 ^ 19
  let r := a2 / 2 ^ 8 + cal[9] * 2 ^ 4
  ([p, d, n, q, m1, m2, m3, a1, a2, r], r)

/-- The accumulator of R200 in 32-bit two's-complement machine arithmetic. -/
def humAccWrap (cal : Vector Int 18) (tFine adcH : BitVec 32) : BitVec 32 :=
  let h1 := BitVec.ofInt 32 cal[12]
  let h2 := BitVec.ofInt 32 cal[13]
  let h3 := BitVec.ofInt 32 cal[14]
  let h4 := BitVec.ofInt 32 cal[15]
  let h5 := BitVec.ofInt 32 cal[16]
  let h6 := BitVec.ofInt 32 cal[17]
  let v := tFine - 76800
  let x1 := (adcH <<< 14 - h4 <<< 20 - h5 * v + 16384).sshiftRight 15
  let y1 := (v * h6).sshiftRight 10
  let y2 := (v * h3).sshiftRight 11 + 32768
  let y3 := (y1 * y2).sshiftRight 10 + 2097152
  let y4 := (y3 * h2 + 8192).sshiftRight 14
  let w := x1 * y4
  let z := w.sshiftRight 15
  w - ((z * z).sshiftRight 7 * h1).sshiftRight 4

/-- The exact results of the checked steps of R200, then the accumulator. A left shift loses the bits shifted out of
32 (R17). -/
def humAccExact (cal : Vector Int 18) (tFine adcH : Int) : List Int × Int :=
  let v := tFine - 76800
  let s1 := (adcH * 2 ^ 14).bmod (2 ^ 32) - (cal[15] * 2 ^ 20).bmod (2 ^ 32)
  let m1 := cal[16] * v
  let s2 := s1 - m1
  let s3 := s2 + 16384
  let m2 := v * cal[17]
  let m3 := v * cal[14]
  let y2 := m3 / 2 ^ 11 + 32768
  let m4 := m2 / 2 ^ 10 * y2
  let y3 := m4 / 2 ^ 10 + 2097152
  let m5 := y3 * cal[13]
  let s4 := m5 + 8192
  let w := s3 / 2 ^ 15 * (s4 / 2 ^ 14)
  let m6 := w / 2 ^ 15 * (w / 2 ^ 15)
  let m7 := m6 / 2 ^ 7 * cal[12]
  let r := w - m7 / 2 ^ 4
  ([v, s1, m1, s2, s3, m2, m3, y2, m4, y3, m5, s4, w, m6, m7, r], r)

/-- The humidity word of an accumulator: clamped to [0, 419430400], then shifted right by 12 (R201, R202). -/
def humWord (acc : Int) : Word :=
  if acc < 0 then 0 else if 419430400 < acc then 0x00019000 else BitVec.ofInt 32 (acc / 4096)

end Sys2Proof.Statement

open Sys2Proof Sys2Proof.Machine Sys2Proof.Statement

/-! ### Reset, the step, the encoding -/

/-- R43: after reset every operand and result register and every coefficient entry is unwritten, so a read of it
faults, `CALMASK` is 0, and `STATUS` shows no fault and the parameter `OVF`. -/
def Obligations.ResetLeavesNothingWritten : Prop :=
  ∀ p : Params,
    ((State.powerOn p).wOpa = false ∧ (State.powerOn p).wOpb = false ∧
      (State.powerOn p).wRes0 = false ∧ (State.powerOn p).wRes1 = false ∧
      (∀ k : Fin 18, (State.powerOn p).calw[k] = false)) ∧
    (∀ off ∈ [0x04, 0x08, 0x0C, 0x10], AnswersFaulting (State.powerOn p) (readAt (State.powerOn p) off) 0x07) ∧
    (∀ k : Fin 18, ∀ b : Word,
      exec .rdcal (withOperands (State.powerOn p) (BitVec.ofNat 32 k.val) b) =
        .next (faulted (withOperands (State.powerOn p) (BitVec.ofNat 32 k.val) b) 0x04)) ∧
    (State.powerOn p).calmask = 0x00000000 ∧
    (State.powerOn p).fault = false ∧ (State.powerOn p).fcode = 0x00 ∧
    (p.ovf = .wrap → (State.powerOn p).status = 0x00000000) ∧
    (p.ovf = .fault → (State.powerOn p).status = 0x00010000)

/-- The reset event leaves every piece of the engine's state as at power-on, so every written bit clear, `CALMASK = 0`,
no fault, `OVFM` per `OVF` (R43, R260), and the host's later events still to come. The model's choices in it: the contents
of unwritten registers and entries, which R43 leaves unspecified (DESIGN CHOICE, log 5), the parameters and events that
reset leaves as they are (DEDUCED, log 9), and the list of events itself (DESIGN CHOICE, log 1). -/
def Obligations.EngineResetClearsEverything : Prop :=
  ∀ (s : State) (rest : List HostEvent), s.inputs = .reset :: rest →
    ∃ t, step s = .next t ∧ SameEngine (State.powerOn s.params) t ∧
      t.wOpa = false ∧ t.wOpb = false ∧ t.wRes0 = false ∧ t.wRes1 = false ∧ (∀ k : Fin 18, t.calw[k] = false) ∧
      t.calmask = 0 ∧ t.fault = false ∧ t.fcode = 0 ∧
      t.status = (if s.params.ovf = .wrap then 0x00000000 else 0x00010000) ∧ t.inputs = rest

/-- The invariant holds at reset, whatever the parameters. The contents of unwritten entries and the parameters
`State.reset` carries are the model's choices (DESIGN CHOICE, logs 2, 3 and 5). -/
def Obligations.ResetMeetsTheInvariant : Prop :=
  State.reset = State.powerOn Config.defaultParams ∧ State.reset.Inv ∧ ∀ p : Params, (State.powerOn p).Inv

/-- Every step keeps the invariant: `FCODE` is 0 without a fault and one of the eight codes with one, and every
coefficient entry holds an integer of its type. -/
def Obligations.StepKeepsTheInvariant : Prop :=
  ∀ s t : State, s.Inv → step s = .next t → t.Inv

/-- A word write to `CMD` runs the operation its word decodes to, and a word that decodes to none raises IllegalOp; the
event is taken off the ones to come (log 1). -/
def Obligations.StepRunsTheDecodedCommand : Prop :=
  ∀ (s : State) (rest : List HostEvent) (c : Word),
    s.inputs = .access (.write (s.params.engineBase + 0x00) 4 c) :: rest →
    (∀ i, decode c = .ok i → i.wellFormed = true → step s = exec i { s with inputs := rest }) ∧
    (∀ e, decode c = .error e → s.fault = false → step s = .next (faulted { s with inputs := rest } 0x01)) ∧
    (s.fault = true → step s = .next { s with inputs := rest })

/-- The thirteen command words of R83, written out. -/
def Obligations.CommandWordsDecodeAsTheTableSays : Prop :=
  decode 0x00000001 = .ok .tcomp ∧ decode 0x00000002 = .ok .pcomp ∧ decode 0x00000003 = .ok .hcomp ∧
  decode 0x00000010 = .ok .fxnew10 ∧ decode 0x00000011 = .ok .fxint10 ∧ decode 0x00000012 = .ok .fxfrac10 ∧
  decode 0x00000013 = .ok .fxdiv10 ∧ decode 0x00000018 = .ok .fxnew8 ∧ decode 0x00000019 = .ok .fxint8 ∧
  decode 0x0000001A = .ok .fxfrac8 ∧ decode 0x0000001B = .ok .fxdiv8 ∧ decode 0x00000020 = .ok .wrcal ∧
  decode 0x00000021 = .ok .rdcal

/-- The match is the whole word: a command word decodes to an operation exactly when it is that operation's encoding,
as a word and as four byte lanes. -/
def Obligations.DecodeAcceptsExactlyTheEncodings : Prop :=
  ∀ (c : Word) (i : Instr) (rest : List Byte),
    (decode c = .ok i ↔ c = encode i) ∧
    (decodeBytes (laneBytes c ++ rest) = .ok (i, rest) ↔ c = encode i)

/-- R86: a command word with non-zero reserved bits or an unassigned `OP` raises IllegalOp and has no other effect. -/
def Obligations.IllegalCommandWordsOnlyRaiseIllegalOp : Prop :=
  ∀ (s : State) (c : Word), s.fault = false →
    (c.toNat / 256 ≠ 0 ∨ c.toNat % 256 = 0x00 ∨ (0x04 ≤ c.toNat % 256 ∧ c.toNat % 256 ≤ 0x0F) ∨
      (0x14 ≤ c.toNat % 256 ∧ c.toNat % 256 ≤ 0x17) ∨ (0x1C ≤ c.toNat % 256 ∧ c.toNat % 256 ≤ 0x1F) ∨
      0x22 ≤ c.toNat % 256) →
    writeAt s 0x00 c = .next (faulted s 0x01)

/-- Byte lane `i` carries bits `[8i+7:8i]`, and the lanes put together give the word back (R63). -/
def Obligations.ByteLanesCarryTheWord : Prop :=
  ∀ w : Word,
    (∀ i j : Nat, i < 4 → j < 8 → (lane w i).getLsbD j = w.getLsbD (8 * i + j)) ∧
    ofLanes (lane w 0) (lane w 1) (lane w 2) (lane w 3) = w

/-! ### The fixed-point operations -/

/-- R115: FXNEW10. -/
def Obligations.Fxnew10BuildsTheWord : Prop :=
  decode 0x00000010 = .ok .fxnew10 ∧
  ∀ s : State, s.fault = false →
    (s.wOpa = false ∨ s.wOpb = false → exec .fxnew10 s = .next (faulted s 0x06)) ∧
    (s.wOpa = true → s.wOpb = true →
      exec .fxnew10 s = .next { s with
        res0 := BitVec.ofInt 32 (s.opa.toInt * 1024 + ((s.opb.toNat % 1024 : Nat) : Int)), wRes0 := true })

/-- R116: FXINT10 gives the floor of the value, sign-extended. -/
def Obligations.Fxint10GivesTheIntegerField : Prop :=
  decode 0x00000011 = .ok .fxint10 ∧
  ∀ s : State, s.fault = false →
    (s.wOpa = false → exec .fxint10 s = .next (faulted s 0x06)) ∧
    (s.wOpa = true →
      exec .fxint10 s = .next { s with res0 := BitVec.ofInt 32 (s.opa.toInt / 1024), wRes0 := true })

/-- R117: FXFRAC10 gives the fraction, never negative. -/
def Obligations.Fxfrac10GivesTheFractionField : Prop :=
  decode 0x00000012 = .ok .fxfrac10 ∧
  ∀ s : State, s.fault = false →
    (s.wOpa = false → exec .fxfrac10 s = .next (faulted s 0x06)) ∧
    (s.wOpa = true →
      exec .fxfrac10 s = .next { s with res0 := BitVec.ofNat 32 (s.opa.toNat % 1024), wRes0 := true })

/-- R118: FXDIV10 truncates toward zero, keeps the low 32 bits, and faults on a zero divisor. -/
def Obligations.Fxdiv10TruncatesTowardZero : Prop :=
  decode 0x00000013 = .ok .fxdiv10 ∧
  ∀ s : State, s.fault = false →
    (s.wOpa = false ∨ s.wOpb = false → exec .fxdiv10 s = .next (faulted s 0x06)) ∧
    (s.wOpa = true → s.wOpb = true → s.opb = 0 → exec .fxdiv10 s = .next (faulted s 0x02)) ∧
    (s.wOpa = true → s.wOpb = true → s.opb ≠ 0 →
      exec .fxdiv10 s = .next { s with
        res0 := BitVec.ofInt 32 (truncDiv (s.opa.toInt * 1024) s.opb.toInt), wRes0 := true })

/-- R120: FXNEW8. -/
def Obligations.Fxnew8BuildsTheWord : Prop :=
  decode 0x00000018 = .ok .fxnew8 ∧
  ∀ s : State, s.fault = false →
    (s.wOpa = false ∨ s.wOpb = false → exec .fxnew8 s = .next (faulted s 0x06)) ∧
    (s.wOpa = true → s.wOpb = true →
      exec .fxnew8 s = .next { s with
        res0 := BitVec.ofNat 32 (s.opa.toNat * 256 + s.opb.toNat % 256), wRes0 := true })

/-- R121: FXINT8 gives the integer field, without sign. -/
def Obligations.Fxint8GivesTheIntegerField : Prop :=
  decode 0x00000019 = .ok .fxint8 ∧
  ∀ s : State, s.fault = false →
    (s.wOpa = false → exec .fxint8 s = .next (faulted s 0x06)) ∧
    (s.wOpa = true →
      exec .fxint8 s = .next { s with res0 := BitVec.ofNat 32 (s.opa.toNat / 256), wRes0 := true })

/-- R122: FXFRAC8 gives the fraction field. -/
def Obligations.Fxfrac8GivesTheFractionField : Prop :=
  decode 0x0000001A = .ok .fxfrac8 ∧
  ∀ s : State, s.fault = false →
    (s.wOpa = false → exec .fxfrac8 s = .next (faulted s 0x06)) ∧
    (s.wOpa = true →
      exec .fxfrac8 s = .next { s with res0 := BitVec.ofNat 32 (s.opa.toNat % 256), wRes0 := true })

/-- R123: FXDIV8 divides unsigned, keeps the low 32 bits, and faults on a zero divisor. -/
def Obligations.Fxdiv8DividesUnsigned : Prop :=
  decode 0x0000001B = .ok .fxdiv8 ∧
  ∀ s : State, s.fault = false →
    (s.wOpa = false ∨ s.wOpb = false → exec .fxdiv8 s = .next (faulted s 0x06)) ∧
    (s.wOpa = true → s.wOpb = true → s.opb = 0 → exec .fxdiv8 s = .next (faulted s 0x02)) ∧
    (s.wOpa = true → s.wOpb = true → s.opb ≠ 0 →
      exec .fxdiv8 s = .next { s with
        res0 := BitVec.ofNat 32 (s.opa.toNat * 256 / s.opb.toNat), wRes0 := true })

/-- R124: the quotient is within one unit in the last place of the true quotient, where nothing is truncated. -/
def Obligations.DivisionIsAccurateToOneUnit : Prop :=
  (∀ s : State, s.Ready .fxdiv8 → s.opb ≠ 0 → s.opa.toNat * 256 / s.opb.toNat < 2 ^ 32 →
    ∃ t, exec .fxdiv8 s = .next t ∧
      fx8Value t.res0 ≤ fx8Value s.opa / fx8Value s.opb ∧
      fx8Value s.opa / fx8Value s.opb < ((t.res0.toNat : ℚ) + 1) / 256) ∧
  (∀ s : State, s.Ready .fxdiv10 → s.opb ≠ 0 → Fits32 (truncDiv (s.opa.toInt * 1024) s.opb.toInt) →
    ∃ t, exec .fxdiv10 s = .next t ∧
      |fx10Value s.opa / fx10Value s.opb - fx10Value t.res0| < 1 / 1024 ∧
      ((0 ≤ fx10Value t.res0 ∧ fx10Value t.res0 ≤ fx10Value s.opa / fx10Value s.opb) ∨
       (fx10Value s.opa / fx10Value s.opb ≤ fx10Value t.res0 ∧ fx10Value t.res0 ≤ 0)))

/-- R125: constructing from the two fields of a word gives the word back, in both kinds. -/
def Obligations.ConstructionRoundTrips : Prop :=
  ∀ (s : State) (w x : Word), s.fault = false →
    (∃ t u v, exec .fxint10 (withOperands s w x) = .next t ∧ exec .fxfrac10 (withOperands t w x) = .next u ∧
      exec .fxnew10 (withOperands u t.res0 u.res0) = .next v ∧ v.res0 = w) ∧
    (∃ t u v, exec .fxint8 (withOperands s w x) = .next t ∧ exec .fxfrac8 (withOperands t w x) = .next u ∧
      exec .fxnew8 (withOperands u t.res0 u.res0) = .next v ∧ v.res0 = w)

/-- R20: an FX10 value is its integer field plus its fraction field over 1024, also for a negative word. -/
def Obligations.Fx10ValueIsIntegerPlusFraction : Prop :=
  ∀ s : State, s.Ready .fxint10 →
    ∃ t u, exec .fxint10 s = .next t ∧ exec .fxfrac10 s = .next u ∧
      fx10Value s.opa = (t.res0.toInt : ℚ) + (u.res0.toNat : ℚ) / 1024

/-- R186: rescaling a centidegree temperature to FX10 degrees, by construction and division. -/
def Obligations.CentidegreesRescaleToDegrees : Prop :=
  ∀ (s : State) (tc : Word), s.fault = false →
    ∃ h n q, exec .fxnew10 (withOperands s 100 0) = .next h ∧
      exec .fxnew10 (withOperands h tc 0) = .next n ∧
      exec .fxdiv10 (withOperands n n.res0 h.res0) = .next q ∧
      q.res0 = BitVec.ofInt 32 (truncDiv ((BitVec.ofInt 32 (tc.toInt * 1024)).toInt * 1024) 102400) ∧
      (-2097152 ≤ tc.toInt → tc.toInt < 2097152 →
        q.res0 = BitVec.ofInt 32 (truncDiv (tc.toInt * 1024) 100))

/-! ### The coefficient file -/

/-- R153: WRCAL keeps the low bits of `OPB` that the entry's type has, and writes no result. -/
def Obligations.WrcalStoresTheTypedValue : Prop :=
  decode 0x00000020 = .ok .wrcal ∧
  ∀ s : State, s.fault = false →
    (s.wOpa = false ∨ s.wOpb = false → exec .wrcal s = .next (faulted s 0x06)) ∧
    (s.wOpa = true → s.wOpb = true → 17 < s.opa.toNat → exec .wrcal s = .next (faulted s 0x05)) ∧
    (∀ k : Fin 18, s.wOpa = true → s.wOpb = true → s.opa.toNat = k.val →
      ∃ t, exec .wrcal s = .next t ∧
        t = { s with cal := s.cal.set k (storedValue k s.opb), calw := s.calw.set k true } ∧
        t.calmask = s.calmask ||| (1 <<< k.val))

/-- R154: RDCAL gives the entry's integer as a word. -/
def Obligations.RdcalReturnsTheEntry : Prop :=
  decode 0x00000021 = .ok .rdcal ∧
  ∀ s : State, s.fault = false →
    (s.wOpa = false → exec .rdcal s = .next (faulted s 0x06)) ∧
    (s.wOpa = true → 17 < s.opa.toNat → exec .rdcal s = .next (faulted s 0x05)) ∧
    (∀ k : Fin 18, s.wOpa = true → s.opa.toNat = k.val →
      (s.calw[k] = false → exec .rdcal s = .next (faulted s 0x04)) ∧
      (s.calw[k] = true →
        exec .rdcal s = .next { s with res0 := BitVec.ofInt 32 s.cal[k], wRes0 := true }))

/-- A coefficient read back after it is written is the value the entry's type keeps; another entry reads as before. -/
def Obligations.CoefficientsReadBackAsWritten : Prop :=
  ∀ (s : State) (k j : Fin 18) (v x : Word), s.fault = false →
    ∃ t u, exec .wrcal (withOperands s (BitVec.ofNat 32 k.val) v) = .next t ∧
      exec .rdcal (withOperands t (BitVec.ofNat 32 j.val) x) = .next u ∧
      (j = k → u.fault = false ∧ u.res0 = BitVec.ofInt 32 (storedValue k v)) ∧
      (j ≠ k → s.calw[j] = true → u.fault = false ∧ u.res0 = BitVec.ofInt 32 s.cal[j]) ∧
      (j ≠ k → s.calw[j] = false → u.fault = true ∧ u.fcode = 0x04)

/-! ### The compensation operations -/

/-- R183, R184, R185: TCOMP, under both values of `OVF`. -/
def Obligations.TcompComputesTheTemperature : Prop :=
  decode 0x00000001 = .ok .tcomp ∧
  ∀ s : State, s.fault = false →
    (s.wOpa = false → exec .tcomp s = .next (faulted s 0x06)) ∧
    (s.wOpa = true → (∃ k : Fin 18, k.val < 3 ∧ s.calw[k] = false) → exec .tcomp s = .next (faulted s 0x04)) ∧
    (s.wOpa = true → (∀ k : Fin 18, k.val < 3 → s.calw[k] = true) →
      (s.params.ovf = .wrap →
        exec .tcomp s = .next { s with
          res0 := (tempWrap s.cal s.opa).1, wRes0 := true, res1 := (tempWrap s.cal s.opa).2, wRes1 := true }) ∧
      (s.params.ovf = .fault → s.CalTyped →
        ((∀ x ∈ (tempExact s.cal s.opa.toInt).1, Fits32 x) →
          exec .tcomp s = .next { s with
            res0 := BitVec.ofInt 32 (tempExact s.cal s.opa.toInt).2.1, wRes0 := true,
            res1 := BitVec.ofInt 32 (tempExact s.cal s.opa.toInt).2.2, wRes1 := true }) ∧
        ((∃ x ∈ (tempExact s.cal s.opa.toInt).1, ¬ Fits32 x) → exec .tcomp s = .next (faulted s 0x03))))

/-- R190, R192, R193: PCOMP, under both values of `OVF`. -/
def Obligations.PcompComputesThePressure : Prop :=
  decode 0x00000002 = .ok .pcomp ∧
  ∀ s : State, s.fault = false →
    (s.wOpa = false ∨ s.wOpb = false → exec .pcomp s = .next (faulted s 0x06)) ∧
    (s.wOpa = true → s.wOpb = true → (∃ k : Fin 18, 3 ≤ k.val ∧ k.val < 12 ∧ s.calw[k] = false) →
      exec .pcomp s = .next (faulted s 0x04)) ∧
    (s.wOpa = true → s.wOpb = true → (∀ k : Fin 18, 3 ≤ k.val → k.val < 12 → s.calw[k] = true) →
      (s.params.ovf = .wrap →
        exec .pcomp s = .next { s with res0 := presWrap s.cal s.opb s.opa, wRes0 := true }) ∧
      (s.params.ovf = .fault → s.CalTyped →
        ((∃ x ∈ (presNormExact s.cal s.opb.toInt).1, ¬ Fits64 x) → exec .pcomp s = .next (faulted s 0x03)) ∧
        ((∀ x ∈ (presNormExact s.cal s.opb.toInt).1, Fits64 x) →
          ((presNormExact s.cal s.opb.toInt).2.1 = 0 → exec .pcomp s = .next { s with res0 := 0, wRes0 := true }) ∧
          ((presNormExact s.cal s.opb.toInt).2.1 ≠ 0 →
            ((∃ x ∈ (presScaleExact s.cal (presNormExact s.cal s.opb.toInt).2.1
                (presNormExact s.cal s.opb.toInt).2.2 s.opa.toInt).1, ¬ Fits64 x) →
              exec .pcomp s = .next (faulted s 0x03)) ∧
            ((∀ x ∈ (presScaleExact s.cal (presNormExact s.cal s.opb.toInt).2.1
                (presNormExact s.cal s.opb.toInt).2.2 s.opa.toInt).1, Fits64 x) →
              exec .pcomp s = .next { s with
                res0 := BitVec.ofInt 32 (presScaleExact s.cal (presNormExact s.cal s.opb.toInt).2.1
                  (presNormExact s.cal s.opb.toInt).2.2 s.opa.toInt).2,
                wRes0 := true })))))

/-- R200, R201, R202, R203: HCOMP, under both values of `OVF`. -/
def Obligations.HcompComputesTheHumidity : Prop :=
  decode 0x00000003 = .ok .hcomp ∧
  ∀ s : State, s.fault = false →
    (s.wOpa = false ∨ s.wOpb = false → exec .hcomp s = .next (faulted s 0x06)) ∧
    (s.wOpa = true → s.wOpb = true → (∃ k : Fin 18, 12 ≤ k.val ∧ s.calw[k] = false) →
      exec .hcomp s = .next (faulted s 0x04)) ∧
    (s.wOpa = true → s.wOpb = true → (∀ k : Fin 18, 12 ≤ k.val → s.calw[k] = true) →
      (s.params.ovf = .wrap →
        exec .hcomp s = .next { s with res0 := humWord (humAccWrap s.cal s.opb s.opa).toInt, wRes0 := true }) ∧
      (s.params.ovf = .fault → s.CalTyped →
        ((∀ x ∈ (humAccExact s.cal s.opb.toInt s.opa.toInt).1, Fits32 x) →
          exec .hcomp s = .next { s with
            res0 := humWord (humAccExact s.cal s.opb.toInt s.opa.toInt).2, wRes0 := true }) ∧
        ((∃ x ∈ (humAccExact s.cal s.opb.toInt s.opa.toInt).1, ¬ Fits32 x) →
          exec .hcomp s = .next (faulted s 0x03))))

/-- R180: a compensation operation with an unwritten entry among those it reads raises CalUnwritten before it computes
anything. -/
def Obligations.CompensationChecksItsCoefficients : Prop :=
  ∀ (s : State) (i : Instr) (k : Fin 18), (i = .tcomp ∨ i = .pcomp ∨ i = .hcomp) → s.Ready i →
    ReadsEntry i s.opa k → s.calw[k] = false → exec i s = .next (faulted s 0x04)

/-- The pressure is zero whenever the normalisation term is, in particular for every input with `dig_p1 = 0` under
`OVF = wrap`; and PCOMP never raises DivideByZero, under either value of `OVF` (R191). -/
def Obligations.PressureShortCircuitsOnZero : Prop :=
  (∀ s : State, s.Ready .pcomp → s.CalReady pcompEntries → s.params.ovf = .wrap →
    (s.cal[3] = 0 ∨ (presNormWrap s.cal s.opb).1 = 0) →
    exec .pcomp s = .next { s with res0 := 0, wRes0 := true }) ∧
  (∀ s t : State, s.fault = false → exec .pcomp s = .next t → t.fault = true → t.fcode ≠ 0x02)

/-- Every humidity HCOMP answers lies in [0, 100] percent, for every input, coefficient set and value of `OVF`; under
`OVF = wrap` a ready HCOMP always answers one (R201, R202, R204). -/
def Obligations.HumidityLiesInItsRange : Prop :=
  (∀ s : State, s.Ready .hcomp → s.CalReady hcompEntries → s.params.ovf = .wrap →
    ∃ t, exec .hcomp s = .next t ∧ t.fault = false ∧ t.wRes0 = true ∧ t.res0.toNat ≤ 102400) ∧
  (∀ s t : State, s.fault = false → exec .hcomp s = .next t → t.fault = false →
    0 ≤ fx10Value t.res0 ∧ fx10Value t.res0 ≤ 100)

/-- Only the three compensation operations raise Overflow, and only under `OVF = fault` (R12, R205). -/
def Obligations.OverflowNeedsTheFaultParameter : Prop :=
  ∀ (i : Instr) (s t : State), s.fault = false → exec i s = .next t → t.fault = true → t.fcode = 0x03 →
    s.params.ovf = .fault ∧ (i = .tcomp ∨ i = .pcomp ∨ i = .hcomp)

/-- What runs without a fault under `OVF = fault` runs to the same end under `OVF = wrap` (R12, R17). -/
def Obligations.FaultModeRefinesWrapMode : Prop :=
  ∀ (i : Instr) (s t : State), s.params.ovf = .fault → exec i s = .next t → t.fault = false →
    exec i { s with params := { s.params with ovf := .wrap } } =
      .next { t with params := { t.params with ovf := .wrap } }

/-- R182: a compensation operation is a function of its operands, the entries it reads and `OVF`, and leaves nothing
behind but its results. -/
def Obligations.CompensationIsPure : Prop :=
  ∀ (i : Instr) (s u : State), (i = .tcomp ∨ i = .pcomp ∨ i = .hcomp) →
    s.Ready i → u.Ready i → s.params.ovf = u.params.ovf →
    s.opa = u.opa → (i ≠ .tcomp → s.opb = u.opb) →
    (∀ k : Fin 18, ReadsEntry i s.opa k → s.cal[k] = u.cal[k] ∧ s.calw[k] = u.calw[k]) →
    ∃ t v, exec i s = .next t ∧ exec i u = .next v ∧
      t.fault = v.fault ∧ (t.fault = true → t.fcode = v.fcode) ∧
      (t.fault = false → t.res0 = v.res0 ∧ (i = .tcomp → t.res1 = v.res1)) ∧
      t = { s with res0 := t.res0, wRes0 := t.wRes0, res1 := t.res1, wRes1 := t.wRes1, fault := t.fault,
                   fcode := t.fcode }

/-! ### Faults -/

/-- R39, R235, R240: while FAULT is set no host event but reset changes anything of the engine. -/
def Obligations.HaltedEngineChangesOnlyByReset : Prop :=
  ∀ (s t : State) (e : HostEvent) (rest : List HostEvent), s.fault = true → s.inputs = e :: rest → step s = .next t →
    (e ≠ .reset → SameEngine s t ∧ t.inputs = rest) ∧ (e = .reset → t.fault = false ∧ t.fcode = 0)

/-- R234: the step that records a fault sets FAULT and one of the eight codes, and changes nothing else of the
engine. -/
def Obligations.FaultsArePrecise : Prop :=
  ∀ s t : State, s.fault = false → step s = .next t → t.fault = true →
    SameEngine (faulted s t.fcode) t ∧ 1 ≤ t.fcode.toNat ∧ t.fcode.toNat ≤ 8

/-- R237: a command reports the first fault of the spec's order, and an access of a wrong width or alignment reports
BadAccess before anything else. -/
def Obligations.FaultsFollowThePriority : Prop :=
  (∀ (s : State) (c : Word), s.fault = false →
    ∃ t, writeAt s 0x00 c = .next t ∧
      ((∀ i, c ≠ encode i) → t.fault = true ∧ t.fcode = 0x01) ∧
      (∀ i, c = encode i →
        let operand := (readsOpa i = true ∧ s.wOpa = false) ∨ (readsOpb i = true ∧ s.wOpb = false)
        let index := (i = .wrcal ∨ i = .rdcal) ∧ 17 < s.opa.toNat
        let entry := ∃ k : Fin 18, ReadsEntry i s.opa k ∧ s.calw[k] = false
        let divisor := (i = .fxdiv10 ∨ i = .fxdiv8) ∧ s.opb = 0
        (operand → t.fault = true ∧ t.fcode = 0x06) ∧
        (¬ operand → index → t.fault = true ∧ t.fcode = 0x05) ∧
        (¬ operand → ¬ index → entry → t.fault = true ∧ t.fcode = 0x04) ∧
        (¬ operand → ¬ index → ¬ entry → divisor → t.fault = true ∧ t.fcode = 0x02) ∧
        (¬ operand → ¬ index → ¬ entry → ¬ divisor → t.fault = true → t.fcode = 0x03))) ∧
  (∀ (s : State) (off width : Nat), s.fault = false → off < 32 → ¬ (width = 4 ∧ 4 ∣ off) →
    ∃ t, step (s.present (.access (.read (s.params.engineBase + off) width))) = .next t ∧ t.fcode = 0x08)

/-- Each operation records only the faults of its own rule (R230). -/
def Obligations.EachOperationRaisesOnlyItsFaults : Prop :=
  ∀ (i : Instr) (s t : State), s.fault = false → exec i s = .next t → t.fault = true →
    t.fcode = 0x06 ∨
    (t.fcode = 0x02 ∧ (i = .fxdiv10 ∨ i = .fxdiv8)) ∨
    (t.fcode = 0x03 ∧ (i = .tcomp ∨ i = .pcomp ∨ i = .hcomp)) ∨
    (t.fcode = 0x04 ∧ (i = .tcomp ∨ i = .pcomp ∨ i = .hcomp ∨ i = .rdcal)) ∨
    (t.fcode = 0x05 ∧ (i = .wrcal ∨ i = .rdcal))

/-! ### Frames -/

/-- Every operation answers a next state, on every state: none stops the machine (R36). -/
def Obligations.EveryOperationCompletes : Prop :=
  ∀ (i : Instr) (s : State), ∃ t, exec i s = .next t

/-- What no operation changes, which operation alone changes what, and that the fault record changes only by a fault,
which changes nothing else (R31, R32, R35, R41, R234). The engine has no memory (R60). -/
def Obligations.OperationsWriteOnlyTheirRegisters : Prop :=
  ∀ (i : Instr) (s t : State), exec i s = .next t →
    (t.opa = s.opa ∧ t.opb = s.opb ∧ t.wOpa = s.wOpa ∧ t.wOpb = s.wOpb) ∧
    (t.params = s.params ∧ t.inputs = s.inputs ∧ t.answers = s.answers ∧ t.draws = s.draws) ∧
    (i ≠ .tcomp → t.res1 = s.res1 ∧ t.wRes1 = s.wRes1) ∧
    (i ≠ .wrcal → t.cal = s.cal ∧ t.calw = s.calw) ∧
    (i = .wrcal → t.res0 = s.res0 ∧ t.wRes0 = s.wRes0 ∧
      ∀ k : Fin 18, k.val ≠ s.opa.toNat → t.cal[k] = s.cal[k] ∧ t.calw[k] = s.calw[k]) ∧
    (t.fault = false → t.fcode = s.fcode) ∧
    (s.fault = false → t.fault = true → t = faulted s t.fcode) ∧
    (s.fault = true → t = s) ∧
    (i ≠ .wrcal → s.fault = false → t.fault = false → t.wRes0 = true)

/-- A written bit stays set until reset, and no event ever changes the parameters (R37, R35, R60). -/
def Obligations.WrittenBitsOnlyGrowUntilReset : Prop :=
  ∀ s t : State, step s = .next t →
    t.params = s.params ∧
    ((∀ rest, s.inputs ≠ .reset :: rest) →
      (s.wOpa = true → t.wOpa = true) ∧ (s.wOpb = true → t.wOpb = true) ∧
      (s.wRes0 = true → t.wRes0 = true) ∧ (s.wRes1 = true → t.wRes1 = true) ∧
      (∀ k : Fin 18, s.calw[k] = true → t.calw[k] = true) ∧
      (s.fault = true → t.fault = true ∧ t.fcode = s.fcode))

/-! ### The register window -/

/-- R64: what a host word write does at each offset. -/
def Obligations.HostWritesFollowTheWindowMap : Prop :=
  ∀ (s : State) (v : Word),
    (s.fault = false →
      (∀ i, decode v = .ok i → writeAt s 0x00 v = exec i s) ∧
      (∀ e, decode v = .error e → writeAt s 0x00 v = .next (faulted s 0x01)) ∧
      writeAt s 0x04 v = .next { s with opa := v, wOpa := true } ∧
      writeAt s 0x08 v = .next { s with opb := v, wOpb := true } ∧
      (∀ off ∈ [0x0C, 0x10, 0x14, 0x18, 0x1C], writeAt s off v = .next (faulted s 0x08))) ∧
    (s.fault = true → ∀ off ∈ [0x00, 0x04, 0x08, 0x0C, 0x10, 0x14, 0x18, 0x1C], writeAt s off v = .next s)

/-- R65: what a host word read does at each offset, halted or not. -/
def Obligations.HostReadsFollowTheWindowMap : Prop :=
  ∀ s : State,
    (s.wOpa = true → Answers s (readAt s 0x04) s.opa) ∧
    (s.wOpa = false → AnswersFaulting s (readAt s 0x04) 0x07) ∧
    (s.wOpb = true → Answers s (readAt s 0x08) s.opb) ∧
    (s.wOpb = false → AnswersFaulting s (readAt s 0x08) 0x07) ∧
    (s.wRes0 = true → Answers s (readAt s 0x0C) s.res0) ∧
    (s.wRes0 = false → AnswersFaulting s (readAt s 0x0C) 0x07) ∧
    (s.wRes1 = true → Answers s (readAt s 0x10) s.res1) ∧
    (s.wRes1 = false → AnswersFaulting s (readAt s 0x10) 0x07) ∧
    Answers s (readAt s 0x14) s.status ∧
    Answers s (readAt s 0x18) s.calmask ∧
    AnswersFaulting s (readAt s 0x00) 0x08 ∧
    AnswersFaulting s (readAt s 0x1C) 0x08

/-- R62: an access of another width than 4 bytes, or at an offset that is no multiple of 4, is a BadAccess; a write
changes nothing else, a read returns some word. -/
def Obligations.NarrowOrMisalignedAccessIsBadAccess : Prop :=
  ∀ (s : State) (off width : Nat) (v : Word), off < 32 → ¬ (width = 4 ∧ 4 ∣ off) →
    (s.fault = false →
      step (s.present (.access (.write (s.params.engineBase + off) width v))) = .next (faulted s 0x08)) ∧
    (s.fault = true → step (s.present (.access (.write (s.params.engineBase + off) width v))) = .next s) ∧
    AnswersFaulting s (step (s.present (.access (.read (s.params.engineBase + off) width)))) 0x08

/-- The layout of `STATUS`: FAULT in bit 0, FCODE in bits 15:8, OVFM in bit 16, every other bit 0 (R35). -/
def Obligations.StatusShowsTheFaultRecord : Prop :=
  ∀ s : State,
    s.status.getLsbD 0 = s.fault ∧
    s.status.extractLsb' 1 7 = 0 ∧
    s.status.extractLsb' 8 8 = s.fcode ∧
    s.status.getLsbD 16 = decide (s.params.ovf = .fault) ∧
    s.status.extractLsb' 17 15 = 0

/-- R38: `CALMASK` shows the coefficient written bits, reads 0 above them, is 0 after reset, cannot be written, and
tells whether each compensation operation has its coefficients. -/
def Obligations.CalmaskShowsTheWrittenEntries : Prop :=
  (∀ s : State,
    (∀ k : Fin 18, s.calmask.getLsbD k.val = s.calw[k]) ∧
    s.calmask.extractLsb' 18 14 = 0 ∧
    (s.calmask.extractLsb' 0 3 = 0b111 ↔ s.CalReady tcompEntries) ∧
    (s.calmask.extractLsb' 3 9 = 0b111111111 ↔ s.CalReady pcompEntries) ∧
    (s.calmask.extractLsb' 12 6 = 0b111111 ↔ s.CalReady hcompEntries) ∧
    (∀ v, s.fault = false → writeAt s 0x18 v = .next (faulted s 0x08))) ∧
  (∀ p : Params, (State.powerOn p).calmask = 0x00000000)

/-- With no host event to come the engine does nothing (R36; the pending events are the model's, log 1). -/
def Obligations.IdleEngineDoesNothing : Prop :=
  ∀ s : State, s.inputs = [] → step s = .next s

/-- The model's choice (DESIGN CHOICE, log 4): an access that starts outside the 32-byte window stops the model with a
fault, because the window is the engine's only address space (R60). -/
def Obligations.AccessOutsideTheWindowStops : Prop :=
  ∀ (s : State) (a width : Nat) (v : Word), (a < s.params.engineBase ∨ s.params.engineBase + 32 ≤ a) →
    step (s.present (.access (.read a width))) = .fault .outsideWindow ∧
    step (s.present (.access (.write a width v))) = .fault .outsideWindow

/-- Two agents' accesses at the same time are refused (R67, D32; how they are presented is the model's, log 8). -/
def Obligations.ConcurrentAgentsAreRefused : Prop :=
  ∀ (s : State) (a b : Access), step (s.present (.concurrent a b)) = .refused .concurrentAgents

/-- The content of a register or entry whose written bit is clear is never a value: states that differ only in such
contents step alike (R37, R43, U7). -/
def Obligations.UnwrittenContentIsNeverAValue : Prop :=
  ∀ s t : State, s.SameVisible t →
    match step s, step t with
    | .next s', .next t' => s'.SameVisible t'
    | .fault a, .fault b => a = b
    | .refused a, .refused b => a = b
    | _, _ => False

/-! ### The host-side decoding -/

/-- R163: every coefficient decoded from the calibration bytes fits its entry, and WRCAL keeps it unchanged. -/
def Obligations.DecodedCoefficientsFitTheirEntries : Prop :=
  ∀ (blk1 : CalBlock1) (blk2 : CalBlock2) (k : Fin 18),
    calTypes[k].Holds (decodeCalibration blk1 blk2)[k] ∧
    ∀ s : State, s.fault = false →
      ∃ t, exec .wrcal (withOperands s (BitVec.ofNat 32 k.val) (BitVec.ofInt 32 (decodeCalibration blk1 blk2)[k])) =
          .next t ∧
        t.cal[k] = (decodeCalibration blk1 blk2)[k] ∧ t.calw[k] = true

/-- R161: the thirteen coefficients of block 1, as little-endian 16-bit or 8-bit fields. -/
def Obligations.BlockOneDecodesLittleEndian : Prop :=
  ∀ (blk1 : CalBlock1) (blk2 : CalBlock2),
    let cal := decodeCalibration blk1 blk2
    cal[0] = ((blk1[1] ++ blk1[0]).toNat : Int) ∧ cal[1] = (blk1[3] ++ blk1[2]).toInt ∧
    cal[2] = (blk1[5] ++ blk1[4]).toInt ∧ cal[3] = ((blk1[7] ++ blk1[6]).toNat : Int) ∧
    cal[4] = (blk1[9] ++ blk1[8]).toInt ∧ cal[5] = (blk1[11] ++ blk1[10]).toInt ∧
    cal[6] = (blk1[13] ++ blk1[12]).toInt ∧ cal[7] = (blk1[15] ++ blk1[14]).toInt ∧
    cal[8] = (blk1[17] ++ blk1[16]).toInt ∧ cal[9] = (blk1[19] ++ blk1[18]).toInt ∧
    cal[10] = (blk1[21] ++ blk1[20]).toInt ∧ cal[11] = (blk1[23] ++ blk1[22]).toInt ∧
    cal[12] = (blk1[25].toNat : Int)

/-- R162: the five coefficients of block 2, the two 12-bit ones among them. -/
def Obligations.BlockTwoDecodesItsFields : Prop :=
  ∀ (blk1 : CalBlock1) (blk2 : CalBlock2),
    let cal := decodeCalibration blk1 blk2
    cal[13] = (blk2[1] ++ blk2[0]).toInt ∧ cal[14] = (blk2[2].toNat : Int) ∧
    cal[15] = (blk2[3] ++ blk2[4].extractLsb' 0 4).toInt ∧
    cal[16] = (blk2[5] ++ blk2[4].extractLsb' 4 4).toInt ∧
    cal[17] = blk2[6].toInt

/-- R166: the raw codes are the top 20 bits of their three bytes and the 16 bits of their two, most significant byte
first, and so lie in the nominal ranges of R13. -/
def Obligations.RawCodesAreMostSignificantFirst : Prop :=
  ∀ m : RawBlock,
    decodeAdcP m = ((m[0] ++ m[1] ++ m[2]).extractLsb' 4 20).toNat ∧
    decodeAdcT m = ((m[3] ++ m[4] ++ m[5]).extractLsb' 4 20).toNat ∧
    decodeAdcH m = (m[6] ++ m[7]).toNat ∧
    decodeAdcP m ≤ 2 ^ 20 - 1 ∧ decodeAdcT m ≤ 2 ^ 20 - 1 ∧ decodeAdcH m ≤ 2 ^ 16 - 1

/-- R160: the two calibration blocks are the bytes at sensor addresses 0x88 to 0xA1 and 0xE1 to 0xF0, which are disjoint
ranges, and a little-endian field is `lo + 256 * hi`. -/
def Obligations.CalibrationBlocksLieAtTheirAddresses : Prop :=
  (∀ sensor : SensorBytes,
    (∀ i : Fin 26, (readCalBlock1 sensor)[i] = sensor (0x88 + i.val)) ∧
    (∀ i : Fin 16, (readCalBlock2 sensor)[i] = sensor (0xE1 + i.val))) ∧
  (∀ a : Nat, a ∈ blockAddresses calBlock1Base 26 ↔ 0x88 ≤ a ∧ a ≤ 0xA1) ∧
  (∀ a : Nat, a ∈ blockAddresses calBlock2Base 16 ↔ 0xE1 ≤ a ∧ a ≤ 0xF0) ∧
  (∀ a : Nat, ¬ (a ∈ blockAddresses calBlock1Base 26 ∧ a ∈ blockAddresses calBlock2Base 16)) ∧
  (∀ lo hi : Byte, le16 lo hi = (lo.toNat : Int) + 256 * (hi.toNat : Int))

/-- The 18 coefficients as fields of the bytes at their sensor addresses (R160, R161, R162). -/
def Obligations.CoefficientsLieAtTheirAddresses : Prop :=
  ∀ sensor : SensorBytes,
    let cal := decodeCalibration (readCalBlock1 sensor) (readCalBlock2 sensor)
    cal[0] = ((sensor 0x89 ++ sensor 0x88).toNat : Int) ∧ cal[1] = (sensor 0x8B ++ sensor 0x8A).toInt ∧
    cal[2] = (sensor 0x8D ++ sensor 0x8C).toInt ∧ cal[3] = ((sensor 0x8F ++ sensor 0x8E).toNat : Int) ∧
    cal[4] = (sensor 0x91 ++ sensor 0x90).toInt ∧ cal[5] = (sensor 0x93 ++ sensor 0x92).toInt ∧
    cal[6] = (sensor 0x95 ++ sensor 0x94).toInt ∧ cal[7] = (sensor 0x97 ++ sensor 0x96).toInt ∧
    cal[8] = (sensor 0x99 ++ sensor 0x98).toInt ∧ cal[9] = (sensor 0x9B ++ sensor 0x9A).toInt ∧
    cal[10] = (sensor 0x9D ++ sensor 0x9C).toInt ∧ cal[11] = (sensor 0x9F ++ sensor 0x9E).toInt ∧
    cal[12] = ((sensor 0xA1).toNat : Int) ∧ cal[13] = (sensor 0xE2 ++ sensor 0xE1).toInt ∧
    cal[14] = ((sensor 0xE3).toNat : Int) ∧
    cal[15] = (sensor 0xE4 ++ (sensor 0xE5).extractLsb' 0 4).toInt ∧
    cal[16] = (sensor 0xE6 ++ (sensor 0xE5).extractLsb' 4 4).toInt ∧ cal[17] = (sensor 0xE7).toInt

/-- R165: the raw measurement block is the bytes at sensor addresses 0xF7 to 0xFE: the 20-bit pressure at 0xF7 to 0xF9,
the 20-bit temperature at 0xFA to 0xFC, the 16-bit humidity at 0xFD and 0xFE, most significant byte first (R166). -/
def Obligations.RawBlockLiesAtItsAddresses : Prop :=
  (∀ a : Nat, a ∈ blockAddresses rawBlockBase 8 ↔ 0xF7 ≤ a ∧ a ≤ 0xFE) ∧
  ∀ sensor : SensorBytes,
    (∀ i : Fin 8, (readRawBlock sensor)[i] = sensor (0xF7 + i.val)) ∧
    decodeAdcP (readRawBlock sensor) = ((sensor 0xF7 ++ sensor 0xF8 ++ sensor 0xF9).extractLsb' 4 20).toNat ∧
    decodeAdcT (readRawBlock sensor) = ((sensor 0xFA ++ sensor 0xFB ++ sensor 0xFC).extractLsb' 4 20).toNat ∧
    decodeAdcH (readRawBlock sensor) = (sensor 0xFD ++ sensor 0xFE).toNat
end

