-- ==== Sys2Proof/Laws/Arith.lean ====
section
/-!
SUPPORT. The laws of the width-checked arithmetic (R16, R17).
-/

namespace Sys2Proof.Machine

/-- `chk` under `OVF = wrap`. -/
@[simp] theorem chk_wrap (n : Nat) (v : Int) : chk .wrap n v = .ok (wrapS n v) := rfl

/-- What `fitsS` says. -/
theorem fitsS_iff (n : Nat) (v : Int) : fitsS n v = true ↔ -2 ^ (n - 1) ≤ v ∧ v < 2 ^ (n - 1) := by
  simp [fitsS]

/-- `chk` under `OVF = fault`, for a value that fits. -/
theorem chk_fault_of_fits {n : Nat} {v : Int} (h : fitsS n v = true) : chk .fault n v = .ok v := by
  simp [chk, h]

/-- `chk` under `OVF = fault`, for a value that does not fit. -/
theorem chk_fault_of_not_fits {n : Nat} {v : Int} (h : fitsS n v = false) : chk .fault n v = .error .overflow := by
  simp [chk, h]

/-- `chk` raises nothing but Overflow, and that only under `OVF = fault`. -/
theorem chk_error {o : Ovf} {n : Nat} {v : Int} {c : Cause} (h : chk o n v = .error c) :
    o = .fault ∧ c = .overflow := by
  cases o with
  | wrap => simp [chk] at h
  | fault =>
    cases hf : fitsS n v with
    | true => simp [chk, hf] at h
    | false => exact ⟨rfl, by simpa [chk, hf] using h.symm⟩

/-- `2^n` is twice `2^(n-1)` for a width that is not 0. -/
theorem two_pow_double {n : Nat} (hn : 0 < n) : (2 : Int) ^ n = 2 * 2 ^ (n - 1) := by
  obtain ⟨m, rfl⟩ : ∃ m, n = m + 1 := ⟨n - 1, by omega⟩
  simp [pow_succ, mul_comm]

/-- A wrapped value lies in the `n`-bit signed range (R17). -/
theorem wrapS_range {n : Nat} (hn : 0 < n) (v : Int) : -2 ^ (n - 1) ≤ wrapS n v ∧ wrapS n v < 2 ^ (n - 1) := by
  have hp : (0 : Nat) < 2 ^ n := Nat.two_pow_pos n
  have h1 := Int.le_bmod (x := v) hp
  have h2 := Int.bmod_lt (x := v) hp
  have h3 := two_pow_double hn
  unfold wrapS
  push_cast at h1 h2
  omega

/-- A wrapped value is congruent to the value (R17). -/
theorem wrapS_emod (n : Nat) (v : Int) : wrapS n v % 2 ^ n = v % 2 ^ n := by
  have h := Int.bmod_emod (x := v) (m := 2 ^ n)
  push_cast at h
  exact h

/-- A value that fits is its own wrapped value. -/
theorem wrapS_of_fits {n : Nat} (hn : 0 < n) {v : Int} (h : fitsS n v = true) : wrapS n v = v := by
  rw [fitsS_iff] at h
  have hd := two_pow_double hn
  unfold wrapS
  apply Int.bmod_eq_of_le <;> push_cast <;> omega

/-- `sext_N` (R16) and `wrap_sN` (R17) are the same function. -/
theorem sext_eq_wrapS {n : Nat} (hn : 0 < n) (v : Int) : sext n v = wrapS n v := by
  have hd := two_pow_double hn
  unfold sext wrapS Int.bmod
  push_cast
  have : ((2 : Int) ^ n + 1) / 2 = 2 ^ (n - 1) := by omega
  rw [this]

/-- A sign-extended field lies in the `n`-bit signed range (R16). -/
theorem sext_range {n : Nat} (hn : 0 < n) (v : Int) : -2 ^ (n - 1) ≤ sext n v ∧ sext n v ≤ 2 ^ (n - 1) - 1 := by
  have h := wrapS_range hn v
  rw [sext_eq_wrapS hn]
  omega

/-- A zero-extended field lies in the `n`-bit unsigned range (R16). -/
theorem zext_range (n : Nat) (v : Int) : 0 ≤ zext n v ∧ zext n v ≤ 2 ^ n - 1 := by
  have hp : (0 : Int) < 2 ^ n := by positivity
  have h1 := Int.emod_nonneg v (ne_of_gt hp)
  have h2 := Int.emod_lt_of_pos v hp
  unfold zext
  omega

/-- The signed reading of the word of an integer. -/
theorem s32_word (v : Int) : s32 (word v) = wrapS 32 v := by
  simp [s32, word, wrapS, BitVec.toInt_ofInt]

/-- The word of a word's signed reading is the word. -/
@[simp] theorem word_s32 (w : Word) : word (s32 w) = w := by
  simp [word, s32]

/-- Two integers congruent modulo `2^32` have one word. -/
theorem word_wrapS (v : Int) : word (wrapS 32 v) = word v := by
  apply BitVec.eq_of_toInt_eq
  simp [word, wrapS, BitVec.toInt_ofInt]

/-- A clamped value lies in the clamp's range (R17). -/
theorem clamp_range {lo hi : Int} (h : lo ≤ hi) (v : Int) : lo ≤ clamp v lo hi ∧ clamp v lo hi ≤ hi := by
  unfold clamp
  split
  · omega
  · split <;> omega

/-- A value inside the clamp's range is left alone (R17). -/
theorem clamp_of_mem {v lo hi : Int} (h1 : lo ≤ v) (h2 : v ≤ hi) : clamp v lo hi = v := by
  unfold clamp
  rw [if_neg (by omega), if_neg (by omega)]

/-- An arithmetic right shift is a floor division: the value lies in the quotient's slice (R17). -/
theorem asr_spec (a : Int) (k : Nat) : asr a k * 2 ^ k ≤ a ∧ a < (asr a k + 1) * 2 ^ k := by
  have hp : (0 : Int) < 2 ^ k := by positivity
  have h1 := Int.mul_ediv_add_emod a (2 ^ k)
  have h2 := Int.emod_nonneg a (ne_of_gt hp)
  have h3 := Int.emod_lt_of_pos a hp
  unfold asr
  constructor <;> nlinarith

end Sys2Proof.Machine
end

