-- ==== Sys2Proof/Laws/State.lean ====
section
/-!
SUPPORT. The fields of every named update of the state, so that no proof unfolds a record update. `raise` is the one
update with a case in it: it changes nothing while FAULT is set (R235).
-/

namespace Sys2Proof.Machine.State

variable (s : State)

/-! The fields after `raise`. -/

@[simp] theorem raise_opa (c : Cause) : (s.raise c).opa = s.opa := by
  unfold State.raise; split <;> rfl
@[simp] theorem raise_opb (c : Cause) : (s.raise c).opb = s.opb := by
  unfold State.raise; split <;> rfl
@[simp] theorem raise_res0 (c : Cause) : (s.raise c).res0 = s.res0 := by
  unfold State.raise; split <;> rfl
@[simp] theorem raise_res1 (c : Cause) : (s.raise c).res1 = s.res1 := by
  unfold State.raise; split <;> rfl
@[simp] theorem raise_wOpa (c : Cause) : (s.raise c).wOpa = s.wOpa := by
  unfold State.raise; split <;> rfl
@[simp] theorem raise_wOpb (c : Cause) : (s.raise c).wOpb = s.wOpb := by
  unfold State.raise; split <;> rfl
@[simp] theorem raise_wRes0 (c : Cause) : (s.raise c).wRes0 = s.wRes0 := by
  unfold State.raise; split <;> rfl
@[simp] theorem raise_wRes1 (c : Cause) : (s.raise c).wRes1 = s.wRes1 := by
  unfold State.raise; split <;> rfl
@[simp] theorem raise_cal (c : Cause) : (s.raise c).cal = s.cal := by
  unfold State.raise; split <;> rfl
@[simp] theorem raise_calw (c : Cause) : (s.raise c).calw = s.calw := by
  unfold State.raise; split <;> rfl
@[simp] theorem raise_fault (c : Cause) : (s.raise c).fault = true := by
  cases h : s.fault <;> simp [State.raise, h]
@[simp] theorem raise_fcode (c : Cause) : (s.raise c).fcode = if s.fault then s.fcode else c.code := by
  cases h : s.fault <;> simp [State.raise, h]
@[simp] theorem raise_params (c : Cause) : (s.raise c).params = s.params := by
  unfold State.raise; split <;> rfl
@[simp] theorem raise_inputs (c : Cause) : (s.raise c).inputs = s.inputs := by
  unfold State.raise; split <;> rfl
@[simp] theorem raise_answers (c : Cause) : (s.raise c).answers = s.answers := by
  unfold State.raise; split <;> rfl
@[simp] theorem raise_draws (c : Cause) : (s.raise c).draws = s.draws := by
  unfold State.raise; split <;> rfl

/-! The fields after `engineReset`. -/

@[simp] theorem engineReset_opa : (s.engineReset).opa = 0 := rfl
@[simp] theorem engineReset_opb : (s.engineReset).opb = 0 := rfl
@[simp] theorem engineReset_res0 : (s.engineReset).res0 = 0 := rfl
@[simp] theorem engineReset_res1 : (s.engineReset).res1 = 0 := rfl
@[simp] theorem engineReset_wOpa : (s.engineReset).wOpa = false := rfl
@[simp] theorem engineReset_wOpb : (s.engineReset).wOpb = false := rfl
@[simp] theorem engineReset_wRes0 : (s.engineReset).wRes0 = false := rfl
@[simp] theorem engineReset_wRes1 : (s.engineReset).wRes1 = false := rfl
@[simp] theorem engineReset_cal : (s.engineReset).cal = Vector.replicate 18 0 := rfl
@[simp] theorem engineReset_calw : (s.engineReset).calw = Vector.replicate 18 false := rfl
@[simp] theorem engineReset_fault : (s.engineReset).fault = false := rfl
@[simp] theorem engineReset_fcode : (s.engineReset).fcode = 0 := rfl
@[simp] theorem engineReset_params : (s.engineReset).params = s.params := rfl
@[simp] theorem engineReset_inputs : (s.engineReset).inputs = s.inputs := rfl
@[simp] theorem engineReset_answers : (s.engineReset).answers = s.answers := rfl
@[simp] theorem engineReset_draws : (s.engineReset).draws = s.draws := rfl

/-! The fields after `setRes0`. -/

@[simp] theorem setRes0_opa (v : Word) : (s.setRes0 v).opa = s.opa := rfl
@[simp] theorem setRes0_opb (v : Word) : (s.setRes0 v).opb = s.opb := rfl
@[simp] theorem setRes0_res0 (v : Word) : (s.setRes0 v).res0 = v := rfl
@[simp] theorem setRes0_res1 (v : Word) : (s.setRes0 v).res1 = s.res1 := rfl
@[simp] theorem setRes0_wOpa (v : Word) : (s.setRes0 v).wOpa = s.wOpa := rfl
@[simp] theorem setRes0_wOpb (v : Word) : (s.setRes0 v).wOpb = s.wOpb := rfl
@[simp] theorem setRes0_wRes0 (v : Word) : (s.setRes0 v).wRes0 = true := rfl
@[simp] theorem setRes0_wRes1 (v : Word) : (s.setRes0 v).wRes1 = s.wRes1 := rfl
@[simp] theorem setRes0_cal (v : Word) : (s.setRes0 v).cal = s.cal := rfl
@[simp] theorem setRes0_calw (v : Word) : (s.setRes0 v).calw = s.calw := rfl
@[simp] theorem setRes0_fault (v : Word) : (s.setRes0 v).fault = s.fault := rfl
@[simp] theorem setRes0_fcode (v : Word) : (s.setRes0 v).fcode = s.fcode := rfl
@[simp] theorem setRes0_params (v : Word) : (s.setRes0 v).params = s.params := rfl
@[simp] theorem setRes0_inputs (v : Word) : (s.setRes0 v).inputs = s.inputs := rfl
@[simp] theorem setRes0_answers (v : Word) : (s.setRes0 v).answers = s.answers := rfl
@[simp] theorem setRes0_draws (v : Word) : (s.setRes0 v).draws = s.draws := rfl

/-! The fields after `setRes1`. -/

@[simp] theorem setRes1_opa (v : Word) : (s.setRes1 v).opa = s.opa := rfl
@[simp] theorem setRes1_opb (v : Word) : (s.setRes1 v).opb = s.opb := rfl
@[simp] theorem setRes1_res0 (v : Word) : (s.setRes1 v).res0 = s.res0 := rfl
@[simp] theorem setRes1_res1 (v : Word) : (s.setRes1 v).res1 = v := rfl
@[simp] theorem setRes1_wOpa (v : Word) : (s.setRes1 v).wOpa = s.wOpa := rfl
@[simp] theorem setRes1_wOpb (v : Word) : (s.setRes1 v).wOpb = s.wOpb := rfl
@[simp] theorem setRes1_wRes0 (v : Word) : (s.setRes1 v).wRes0 = s.wRes0 := rfl
@[simp] theorem setRes1_wRes1 (v : Word) : (s.setRes1 v).wRes1 = true := rfl
@[simp] theorem setRes1_cal (v : Word) : (s.setRes1 v).cal = s.cal := rfl
@[simp] theorem setRes1_calw (v : Word) : (s.setRes1 v).calw = s.calw := rfl
@[simp] theorem setRes1_fault (v : Word) : (s.setRes1 v).fault = s.fault := rfl
@[simp] theorem setRes1_fcode (v : Word) : (s.setRes1 v).fcode = s.fcode := rfl
@[simp] theorem setRes1_params (v : Word) : (s.setRes1 v).params = s.params := rfl
@[simp] theorem setRes1_inputs (v : Word) : (s.setRes1 v).inputs = s.inputs := rfl
@[simp] theorem setRes1_answers (v : Word) : (s.setRes1 v).answers = s.answers := rfl
@[simp] theorem setRes1_draws (v : Word) : (s.setRes1 v).draws = s.draws := rfl

/-! The fields after `setOpa`. -/

@[simp] theorem setOpa_opa (v : Word) : (s.setOpa v).opa = v := rfl
@[simp] theorem setOpa_opb (v : Word) : (s.setOpa v).opb = s.opb := rfl
@[simp] theorem setOpa_res0 (v : Word) : (s.setOpa v).res0 = s.res0 := rfl
@[simp] theorem setOpa_res1 (v : Word) : (s.setOpa v).res1 = s.res1 := rfl
@[simp] theorem setOpa_wOpa (v : Word) : (s.setOpa v).wOpa = true := rfl
@[simp] theorem setOpa_wOpb (v : Word) : (s.setOpa v).wOpb = s.wOpb := rfl
@[simp] theorem setOpa_wRes0 (v : Word) : (s.setOpa v).wRes0 = s.wRes0 := rfl
@[simp] theorem setOpa_wRes1 (v : Word) : (s.setOpa v).wRes1 = s.wRes1 := rfl
@[simp] theorem setOpa_cal (v : Word) : (s.setOpa v).cal = s.cal := rfl
@[simp] theorem setOpa_calw (v : Word) : (s.setOpa v).calw = s.calw := rfl
@[simp] theorem setOpa_fault (v : Word) : (s.setOpa v).fault = s.fault := rfl
@[simp] theorem setOpa_fcode (v : Word) : (s.setOpa v).fcode = s.fcode := rfl
@[simp] theorem setOpa_params (v : Word) : (s.setOpa v).params = s.params := rfl
@[simp] theorem setOpa_inputs (v : Word) : (s.setOpa v).inputs = s.inputs := rfl
@[simp] theorem setOpa_answers (v : Word) : (s.setOpa v).answers = s.answers := rfl
@[simp] theorem setOpa_draws (v : Word) : (s.setOpa v).draws = s.draws := rfl

/-! The fields after `setOpb`. -/

@[simp] theorem setOpb_opa (v : Word) : (s.setOpb v).opa = s.opa := rfl
@[simp] theorem setOpb_opb (v : Word) : (s.setOpb v).opb = v := rfl
@[simp] theorem setOpb_res0 (v : Word) : (s.setOpb v).res0 = s.res0 := rfl
@[simp] theorem setOpb_res1 (v : Word) : (s.setOpb v).res1 = s.res1 := rfl
@[simp] theorem setOpb_wOpa (v : Word) : (s.setOpb v).wOpa = s.wOpa := rfl
@[simp] theorem setOpb_wOpb (v : Word) : (s.setOpb v).wOpb = true := rfl
@[simp] theorem setOpb_wRes0 (v : Word) : (s.setOpb v).wRes0 = s.wRes0 := rfl
@[simp] theorem setOpb_wRes1 (v : Word) : (s.setOpb v).wRes1 = s.wRes1 := rfl
@[simp] theorem setOpb_cal (v : Word) : (s.setOpb v).cal = s.cal := rfl
@[simp] theorem setOpb_calw (v : Word) : (s.setOpb v).calw = s.calw := rfl
@[simp] theorem setOpb_fault (v : Word) : (s.setOpb v).fault = s.fault := rfl
@[simp] theorem setOpb_fcode (v : Word) : (s.setOpb v).fcode = s.fcode := rfl
@[simp] theorem setOpb_params (v : Word) : (s.setOpb v).params = s.params := rfl
@[simp] theorem setOpb_inputs (v : Word) : (s.setOpb v).inputs = s.inputs := rfl
@[simp] theorem setOpb_answers (v : Word) : (s.setOpb v).answers = s.answers := rfl
@[simp] theorem setOpb_draws (v : Word) : (s.setOpb v).draws = s.draws := rfl

/-! The fields after `setCal`. -/

@[simp] theorem setCal_opa (k : Fin 18) (v : Int) : (s.setCal k v).opa = s.opa := rfl
@[simp] theorem setCal_opb (k : Fin 18) (v : Int) : (s.setCal k v).opb = s.opb := rfl
@[simp] theorem setCal_res0 (k : Fin 18) (v : Int) : (s.setCal k v).res0 = s.res0 := rfl
@[simp] theorem setCal_res1 (k : Fin 18) (v : Int) : (s.setCal k v).res1 = s.res1 := rfl
@[simp] theorem setCal_wOpa (k : Fin 18) (v : Int) : (s.setCal k v).wOpa = s.wOpa := rfl
@[simp] theorem setCal_wOpb (k : Fin 18) (v : Int) : (s.setCal k v).wOpb = s.wOpb := rfl
@[simp] theorem setCal_wRes0 (k : Fin 18) (v : Int) : (s.setCal k v).wRes0 = s.wRes0 := rfl
@[simp] theorem setCal_wRes1 (k : Fin 18) (v : Int) : (s.setCal k v).wRes1 = s.wRes1 := rfl
@[simp] theorem setCal_cal (k : Fin 18) (v : Int) : (s.setCal k v).cal = s.cal.set k v := rfl
@[simp] theorem setCal_calw (k : Fin 18) (v : Int) : (s.setCal k v).calw = s.calw.set k true := rfl
@[simp] theorem setCal_fault (k : Fin 18) (v : Int) : (s.setCal k v).fault = s.fault := rfl
@[simp] theorem setCal_fcode (k : Fin 18) (v : Int) : (s.setCal k v).fcode = s.fcode := rfl
@[simp] theorem setCal_params (k : Fin 18) (v : Int) : (s.setCal k v).params = s.params := rfl
@[simp] theorem setCal_inputs (k : Fin 18) (v : Int) : (s.setCal k v).inputs = s.inputs := rfl
@[simp] theorem setCal_answers (k : Fin 18) (v : Int) : (s.setCal k v).answers = s.answers := rfl
@[simp] theorem setCal_draws (k : Fin 18) (v : Int) : (s.setCal k v).draws = s.draws := rfl

/-! The fields after `answer`. -/

@[simp] theorem answer_opa (v : Word) : (s.answer v).opa = s.opa := rfl
@[simp] theorem answer_opb (v : Word) : (s.answer v).opb = s.opb := rfl
@[simp] theorem answer_res0 (v : Word) : (s.answer v).res0 = s.res0 := rfl
@[simp] theorem answer_res1 (v : Word) : (s.answer v).res1 = s.res1 := rfl
@[simp] theorem answer_wOpa (v : Word) : (s.answer v).wOpa = s.wOpa := rfl
@[simp] theorem answer_wOpb (v : Word) : (s.answer v).wOpb = s.wOpb := rfl
@[simp] theorem answer_wRes0 (v : Word) : (s.answer v).wRes0 = s.wRes0 := rfl
@[simp] theorem answer_wRes1 (v : Word) : (s.answer v).wRes1 = s.wRes1 := rfl
@[simp] theorem answer_cal (v : Word) : (s.answer v).cal = s.cal := rfl
@[simp] theorem answer_calw (v : Word) : (s.answer v).calw = s.calw := rfl
@[simp] theorem answer_fault (v : Word) : (s.answer v).fault = s.fault := rfl
@[simp] theorem answer_fcode (v : Word) : (s.answer v).fcode = s.fcode := rfl
@[simp] theorem answer_params (v : Word) : (s.answer v).params = s.params := rfl
@[simp] theorem answer_inputs (v : Word) : (s.answer v).inputs = s.inputs := rfl
@[simp] theorem answer_answers (v : Word) : (s.answer v).answers = s.answers ++ [v] := rfl
@[simp] theorem answer_draws (v : Word) : (s.answer v).draws = s.draws := rfl

/-! The fields after `answerFree`. -/

@[simp] theorem answerFree_opa : (s.answerFree).opa = s.opa := rfl
@[simp] theorem answerFree_opb : (s.answerFree).opb = s.opb := rfl
@[simp] theorem answerFree_res0 : (s.answerFree).res0 = s.res0 := rfl
@[simp] theorem answerFree_res1 : (s.answerFree).res1 = s.res1 := rfl
@[simp] theorem answerFree_wOpa : (s.answerFree).wOpa = s.wOpa := rfl
@[simp] theorem answerFree_wOpb : (s.answerFree).wOpb = s.wOpb := rfl
@[simp] theorem answerFree_wRes0 : (s.answerFree).wRes0 = s.wRes0 := rfl
@[simp] theorem answerFree_wRes1 : (s.answerFree).wRes1 = s.wRes1 := rfl
@[simp] theorem answerFree_cal : (s.answerFree).cal = s.cal := rfl
@[simp] theorem answerFree_calw : (s.answerFree).calw = s.calw := rfl
@[simp] theorem answerFree_fault : (s.answerFree).fault = s.fault := rfl
@[simp] theorem answerFree_fcode : (s.answerFree).fcode = s.fcode := rfl
@[simp] theorem answerFree_params : (s.answerFree).params = s.params := rfl
@[simp] theorem answerFree_inputs : (s.answerFree).inputs = s.inputs := rfl
@[simp] theorem answerFree_answers : (s.answerFree).answers = s.answers ++ [Config.freeWord s.draws] := rfl
@[simp] theorem answerFree_draws : (s.answerFree).draws = s.draws + 1 := rfl

/-! The fields after `present`. -/

@[simp] theorem present_opa (e : HostEvent) : (s.present e).opa = s.opa := rfl
@[simp] theorem present_opb (e : HostEvent) : (s.present e).opb = s.opb := rfl
@[simp] theorem present_res0 (e : HostEvent) : (s.present e).res0 = s.res0 := rfl
@[simp] theorem present_res1 (e : HostEvent) : (s.present e).res1 = s.res1 := rfl
@[simp] theorem present_wOpa (e : HostEvent) : (s.present e).wOpa = s.wOpa := rfl
@[simp] theorem present_wOpb (e : HostEvent) : (s.present e).wOpb = s.wOpb := rfl
@[simp] theorem present_wRes0 (e : HostEvent) : (s.present e).wRes0 = s.wRes0 := rfl
@[simp] theorem present_wRes1 (e : HostEvent) : (s.present e).wRes1 = s.wRes1 := rfl
@[simp] theorem present_cal (e : HostEvent) : (s.present e).cal = s.cal := rfl
@[simp] theorem present_calw (e : HostEvent) : (s.present e).calw = s.calw := rfl
@[simp] theorem present_fault (e : HostEvent) : (s.present e).fault = s.fault := rfl
@[simp] theorem present_fcode (e : HostEvent) : (s.present e).fcode = s.fcode := rfl
@[simp] theorem present_params (e : HostEvent) : (s.present e).params = s.params := rfl
@[simp] theorem present_inputs (e : HostEvent) : (s.present e).inputs = e :: s.inputs := rfl
@[simp] theorem present_answers (e : HostEvent) : (s.present e).answers = s.answers := rfl
@[simp] theorem present_draws (e : HostEvent) : (s.present e).draws = s.draws := rfl

end Sys2Proof.Machine.State
end

