-- ==== Sys2Proof/Laws/Ops.lean ====
section
/-!
SUPPORT. What each shared operation can do, said once: recording a fault, running a command, coefficient readiness,
the coefficient index.
-/

namespace Sys2Proof.Machine

/-- Recording the first fault (R234). -/
theorem State.raise_running {s : State} (h : s.fault = false) (c : Cause) :
    s.raise c = { s with fault := true, fcode := c.code } := by
  simp [State.raise, h]

/-- While FAULT is set nothing is recorded (R235). -/
theorem State.raise_halted {s : State} (h : s.fault = true) (c : Cause) : s.raise c = s := by
  simp [State.raise, h]

/-- The code of a cause is one of 0x01 to 0x08 (R230). -/
theorem Cause.code_range (c : Cause) : 1 ≤ c.code.toNat ∧ c.code.toNat ≤ 8 := by
  cases c <;> decide

/-- No two causes share a code (R230). -/
theorem Cause.code_injective {c d : Cause} (h : c.code = d.code) : c = d := by
  cases c <;> cases d <;> first | rfl | exact absurd h (by decide)

/-- A command while halted has no effect (R39). -/
theorem command_halted {s : State} (i : Instr) (body : State → Except Cause State) (h : s.fault = true) :
    s.command i body = .next s := by
  simp [State.command, h]

/-- A command whose operand `OPA` or `OPB` was never written records OperandUnwritten (R85). -/
theorem command_operand_unwritten {s : State} {i : Instr} (body : State → Except Cause State) (hf : s.fault = false)
    (h : (readsOpa i = true ∧ s.wOpa = false) ∨ (readsOpb i = true ∧ s.wOpb = false)) :
    s.command i body = .next (s.raise .operandUnwritten) := by
  unfold State.command
  rw [if_neg (by simp [hf])]
  split
  · rfl
  · rename_i hn
    have hb : readsOpb i = true ∧ s.wOpb = false := by
      rcases h with ⟨h1, h2⟩ | h
      · simp [h1, h2] at hn
      · exact h
    rw [if_pos (by simp [hb.1, hb.2])]

/-- A ready command runs the operation's own rule (R85). -/
theorem command_ready {s : State} {i : Instr} (body : State → Except Cause State) (h : s.Ready i) :
    s.command i body = s.settle (body s) := by
  obtain ⟨hf, ha, hb⟩ := h
  unfold State.command
  rw [if_neg (by simp [hf]), if_neg (by cases h : readsOpa i <;> simp_all),
    if_neg (by cases h : readsOpb i <;> simp_all)]

/-- Everything a command can do: nothing while halted, one fault recorded, or the operation's own effect. -/
theorem command_cases (s : State) (i : Instr) (body : State → Except Cause State) :
    (s.fault = true ∧ s.command i body = .next s) ∨
    (s.fault = false ∧ ((readsOpa i = true ∧ s.wOpa = false) ∨ (readsOpb i = true ∧ s.wOpb = false)) ∧
      s.command i body = .next (s.raise .operandUnwritten)) ∨
    (s.Ready i ∧ ∃ c, body s = .error c ∧ s.command i body = .next (s.raise c)) ∨
    (s.Ready i ∧ ∃ t, body s = .ok t ∧ s.command i body = .next t) := by
  cases hf : s.fault with
  | true => exact .inl ⟨rfl, command_halted i body hf⟩
  | false =>
    by_cases h : (readsOpa i = true ∧ s.wOpa = false) ∨ (readsOpb i = true ∧ s.wOpb = false)
    · exact .inr (.inl ⟨rfl, h, command_operand_unwritten body hf h⟩)
    · have hr : s.Ready i := by
        refine ⟨hf, fun ha => ?_, fun hb => ?_⟩
        · cases hw : s.wOpa <;> simp_all
        · cases hw : s.wOpb <;> simp_all
      have hc := command_ready body hr
      cases hb : body s with
      | error c => exact .inr (.inr (.inl ⟨hr, c, rfl, by rw [hc, hb]; rfl⟩))
      | ok t => exact .inr (.inr (.inr ⟨hr, t, rfl, by rw [hc, hb]; rfl⟩))

/-- The entries are all written: readiness raises nothing (R180). -/
theorem needCal_ready {s : State} {ks : List (Fin 18)} (h : s.CalReady ks) : s.needCal ks = .ok () := by
  have : ks.find? (fun k => !s.calw[k]) = none := by
    rw [List.find?_eq_none]
    intro k hk
    simp [h k hk]
  simp only [State.needCal, this]

/-- Some entry was never written: readiness raises CalUnwritten (R180). -/
theorem needCal_unready {s : State} {ks : List (Fin 18)} (h : ¬ s.CalReady ks) :
    s.needCal ks = .error .calUnwritten := by
  unfold State.needCal
  split
  · rfl
  · rename_i hn
    rw [List.find?_eq_none] at hn
    exact absurd (fun k hk => by simpa using hn k hk) h

/-- A coefficient index in range (R153). -/
theorem calIndex_of_lt {w : Word} (h : w.toNat < 18) : calIndex w = .ok ⟨w.toNat, h⟩ := by
  simp [calIndex, u32, h]

/-- A coefficient index out of range (R153). -/
theorem calIndex_of_ge {w : Word} (h : 18 ≤ w.toNat) : calIndex w = .error .badIndex := by
  simp [calIndex, u32, Nat.not_lt.mpr h]

/-- Writing one entry, seen at an entry (R153). -/
theorem setCal_cal_get (s : State) (k j : Fin 18) (v : Int) :
    (s.setCal k v).cal[j] = if k = j then v else s.cal[j] := by
  simp [State.setCal, Vector.getElem_set, Fin.ext_iff]

/-- Writing one entry, seen at a written bit (R153). -/
theorem setCal_calw_get (s : State) (k j : Fin 18) (v : Int) :
    (s.setCal k v).calw[j] = if k = j then true else s.calw[j] := by
  simp [State.setCal, Vector.getElem_set, Fin.ext_iff]

/-- The width of every entry is 8 or 16 (R150). -/
theorem calTypes_width (k : Fin 18) : calTypes[k].width = 8 ∨ calTypes[k].width = 16 := by
  revert k; decide

/-- What WRCAL stores always fits the entry's type (R150, R153). -/
theorem ofWord_holds (t : CalType) (ht : 0 < t.width) (w : Word) : t.Holds (t.ofWord w) := by
  unfold CalType.Holds CalType.least CalType.greatest CalType.ofWord
  cases t.signed with
  | true => exact sext_range ht (u32 w)
  | false => exact zext_range t.width (u32 w)

end Sys2Proof.Machine
end

