-- ==== Sys2Proof/Laws/Exec.lean ====
section
/-!
SUPPORT. Every operation is one command over its own rule, and what an operation's own rule can do, said once.
-/

namespace Sys2Proof.Machine

/-- The operation's own rule, run once its operands are there (R83, R85). -/
def bodyOf : Instr → State → Except Cause State
  | .tcomp    => tcompBody
  | .pcomp    => pcompBody
  | .hcomp    => hcompBody
  | .fxnew10  => fxnew10Body
  | .fxint10  => fxint10Body
  | .fxfrac10 => fxfrac10Body
  | .fxdiv10  => fxdiv10Body
  | .fxnew8   => fxnew8Body
  | .fxint8   => fxint8Body
  | .fxfrac8  => fxfrac8Body
  | .fxdiv8   => fxdiv8Body
  | .wrcal    => wrcalBody
  | .rdcal    => rdcalBody

/-- Every operation is a command over its own rule (R85). -/
theorem exec_eq_command (i : Instr) (s : State) : exec i s = s.command i (bodyOf i) := by
  cases i <;> rfl

/-- Every operation reads `OPA` (R84). -/
@[simp] theorem readsOpa_eq_true (i : Instr) : readsOpa i = true := by
  cases i <;> rfl

/-- A ready operation does what its own rule says (R85). -/
theorem exec_ready {i : Instr} {s : State} (h : s.Ready i) :
    exec i s = s.settle (bodyOf i s) := by
  rw [exec_eq_command, command_ready _ h]

/-- An operation whose own rule ends well. -/
theorem exec_of_body_ok {i : Instr} {s t : State} (h : s.Ready i) (hb : bodyOf i s = .ok t) : exec i s = .next t := by
  rw [exec_ready h, hb]; rfl

/-- An operation whose own rule raises a fault. -/
theorem exec_of_body_error {i : Instr} {s : State} {c : Cause} (h : s.Ready i) (hb : bodyOf i s = .error c) :
    exec i s = .next (s.raise c) := by
  rw [exec_ready h, hb]; rfl

/-- Everything an operation that answers `t` can have done. -/
theorem exec_next_cases {i : Instr} {s t : State} (h : exec i s = .next t) :
    (s.fault = true ∧ t = s) ∨
    (s.fault = false ∧ (s.wOpa = false ∨ (readsOpb i = true ∧ s.wOpb = false)) ∧ t = s.raise .operandUnwritten) ∨
    (s.Ready i ∧ ∃ c, bodyOf i s = .error c ∧ t = s.raise c) ∨
    (s.Ready i ∧ bodyOf i s = .ok t) := by
  rw [exec_eq_command] at h
  rcases command_cases s i (bodyOf i) with ⟨hf, hc⟩ | ⟨hf, hu, hc⟩ | ⟨hr, c, hb, hc⟩ | ⟨hr, u, hb, hc⟩ <;>
    rw [hc] at h <;> injection h with h <;> subst h
  · exact .inl ⟨hf, rfl⟩
  · exact .inr (.inl ⟨hf, by simpa using hu, rfl⟩)
  · exact .inr (.inr (.inl ⟨hr, c, hb, rfl⟩))
  · exact .inr (.inr (.inr ⟨hr, hb⟩))

/-- A chain of two steps that may raise ends well exactly when both do. -/
theorem bind_eq_ok {α β : Type} {x : Except Cause α} {f : α → Except Cause β} {b : β} :
    (x >>= f) = .ok b ↔ ∃ a, x = .ok a ∧ f a = .ok b := by
  cases x with
  | error c => constructor
               · intro h; cases h
               · rintro ⟨a, h, _⟩; cases h
  | ok a => constructor
            · intro h; exact ⟨a, rfl, h⟩
            · rintro ⟨a', h, hf⟩; cases h; exact hf

/-- A chain of two steps that may raise raises what the first raises, or what the second does. -/
theorem bind_eq_error {α β : Type} {x : Except Cause α} {f : α → Except Cause β} {c : Cause} :
    (x >>= f) = .error c ↔ x = .error c ∨ ∃ a, x = .ok a ∧ f a = .error c := by
  cases x with
  | error d => constructor
               · intro h; exact .inl (by cases h; rfl)
               · rintro (h | ⟨a, h, _⟩) <;> cases h; rfl
  | ok a => constructor
            · intro h; exact .inr ⟨a, rfl, h⟩
            · rintro (h | ⟨a', h, hf⟩)
              · cases h
              · cases h; exact hf

/-- What an operation's own rule leaves when it ends well: result registers for every operation but WRCAL, one
coefficient entry for WRCAL (R32, R41, R84). -/
theorem bodyOf_ok {i : Instr} {s t : State} (h : bodyOf i s = .ok t) :
    (i = .tcomp ∧ ∃ v w, t = (s.setRes0 v).setRes1 w) ∨
    (i ≠ .tcomp ∧ i ≠ .wrcal ∧ ∃ v, t = s.setRes0 v) ∨
    (i = .wrcal ∧ ∃ hk : s.opa.toNat < 18, t = s.setCal ⟨s.opa.toNat, hk⟩ (calTypes[s.opa.toNat].ofWord s.opb)) := by
  cases i with
  | tcomp =>
    simp only [bodyOf, tcompBody, bind_eq_ok] at h
    obtain ⟨_, _, tf, _, tc, _, h⟩ := h
    exact .inl ⟨rfl, _, _, by injection h with h; exact h.symm⟩
  | pcomp =>
    simp only [bodyOf, pcompBody, bind_eq_ok] at h
    obtain ⟨_, _, p, _, h⟩ := h
    exact .inr (.inl ⟨by decide, by decide, _, by injection h with h; exact h.symm⟩)
  | hcomp =>
    simp only [bodyOf, hcompBody, bind_eq_ok] at h
    obtain ⟨_, _, p, _, h⟩ := h
    exact .inr (.inl ⟨by decide, by decide, _, by injection h with h; exact h.symm⟩)
  | fxdiv10 =>
    simp only [bodyOf, fxdiv10Body, bind_eq_ok] at h
    obtain ⟨q, _, h⟩ := h
    exact .inr (.inl ⟨by decide, by decide, _, by injection h with h; exact h.symm⟩)
  | fxdiv8 =>
    simp only [bodyOf, fxdiv8Body, bind_eq_ok] at h
    obtain ⟨q, _, h⟩ := h
    exact .inr (.inl ⟨by decide, by decide, _, by injection h with h; exact h.symm⟩)
  | wrcal =>
    simp only [bodyOf, wrcalBody, bind_eq_ok] at h
    obtain ⟨k, hk, h⟩ := h
    by_cases hlt : s.opa.toNat < 18
    · rw [calIndex_of_lt hlt] at hk
      injection hk with hk
      subst hk
      exact .inr (.inr ⟨rfl, hlt, by injection h with h; exact h.symm⟩)
    · rw [calIndex_of_ge (by omega)] at hk
      cases hk
  | rdcal =>
    simp only [bodyOf, rdcalBody, bind_eq_ok] at h
    obtain ⟨k, _, _, _, h⟩ := h
    exact .inr (.inl ⟨by decide, by decide, _, by injection h with h; exact h.symm⟩)
  | _ => exact .inr (.inl ⟨by decide, by decide, _, by injection h with h; exact h.symm⟩)

end Sys2Proof.Machine
end

