-- ==== Sys2Proof/Laws/Compensation.lean ====
section
/-!
SUPPORT. What the compensation functions can raise, how the two values of `OVF` relate, and which coefficients each
function reads: one lemma a function.
-/

namespace Sys2Proof.Machine

/-! ### What a checked computation can raise -/

/-- The computation raises nothing but Overflow, and that only under `OVF = fault` (R205). -/
def OnlyOverflow {α : Type} (o : Ovf) (x : Except Cause α) : Prop :=
  ∀ c, x = .error c → o = .fault ∧ c = .overflow

theorem OnlyOverflow.bind {α β : Type} {o : Ovf} {x : Except Cause α} {f : α → Except Cause β}
    (hx : OnlyOverflow o x) (hf : ∀ a, OnlyOverflow o (f a)) : OnlyOverflow o (x >>= f) := by
  intro c h
  rcases bind_eq_error.mp h with h | ⟨a, _, h⟩
  · exact hx c h
  · exact hf a c h

theorem OnlyOverflow.ok {α : Type} {o : Ovf} {a : α} : OnlyOverflow o (.ok a : Except Cause α) :=
  fun _ h => by cases h

theorem OnlyOverflow.add {o : Ovf} {n : Nat} {a b : Int} : OnlyOverflow o (Machine.add o n a b) := fun _ => chk_error
theorem OnlyOverflow.sub {o : Ovf} {n : Nat} {a b : Int} : OnlyOverflow o (Machine.sub o n a b) := fun _ => chk_error
theorem OnlyOverflow.mul {o : Ovf} {n : Nat} {a b : Int} : OnlyOverflow o (Machine.mul o n a b) := fun _ => chk_error

theorem OnlyOverflow.sdiv {o : Ovf} {n : Nat} {a b : Int} (hb : b ≠ 0) :
    OnlyOverflow o (Machine.sdiv o n a b) := by
  intro c h
  unfold Machine.sdiv at h
  rw [if_neg hb] at h
  exact chk_error h

theorem tCompFine_onlyOverflow (o : Ovf) (cal : Coeffs) (adcT : Int) : OnlyOverflow o (tCompFine o cal adcT) :=
  .bind (.sub) fun _ => .bind (.mul) fun _ => .bind (.sub) fun _ => .bind (.mul) fun _ =>
    .bind (.mul) fun _ => .add

theorem tCompCenti_onlyOverflow (o : Ovf) (tFine : Int) : OnlyOverflow o (tCompCenti o tFine) :=
  .bind (.mul) fun _ => .bind (.add) fun _ => .ok

theorem pCompNorm_onlyOverflow (o : Ovf) (cal : Coeffs) (tFine : Int) : OnlyOverflow o (pCompNorm o cal tFine) :=
  .bind (.sub) fun _ => .bind (.mul) fun _ => .bind (.mul) fun _ => .bind (.mul) fun _ =>
    .bind (.add) fun _ => .bind (.add) fun _ => .bind (.mul) fun _ => .bind (.mul) fun _ =>
    .bind (.mul) fun _ => .bind (.add) fun _ => .bind (.add) fun _ => .bind (.mul) fun _ => .ok

theorem pCompScale_onlyOverflow (o : Ovf) (cal : Coeffs) {v1 : Int} (h : v1 ≠ 0) (v2 adcP : Int) :
    OnlyOverflow o (pCompScale o cal v1 v2 adcP) :=
  .bind (.sub) fun _ => .bind (.sub) fun _ => .bind (.mul) fun _ => .bind (.sdiv h) fun _ =>
    .bind (.mul) fun _ => .bind (.mul) fun _ => .bind (.mul) fun _ => .bind (.add) fun _ =>
    .bind (.add) fun _ => .add

theorem pComp_onlyOverflow (o : Ovf) (cal : Coeffs) (tFine adcP : Int) : OnlyOverflow o (pComp o cal tFine adcP) := by
  refine .bind (pCompNorm_onlyOverflow o cal tFine) fun v => ?_
  by_cases h : v.1 = 0
  · rw [if_pos h]; exact .ok
  · rw [if_neg h]; exact pCompScale_onlyOverflow o cal h v.2 adcP

theorem hCompPre_onlyOverflow (o : Ovf) (cal : Coeffs) (tFine adcH : Int) :
    OnlyOverflow o (hCompPre o cal tFine adcH) :=
  .bind (.sub) fun _ => .bind (.sub) fun _ => .bind (.mul) fun _ => .bind (.sub) fun _ =>
    .bind (.add) fun _ => .bind (.mul) fun _ => .bind (.mul) fun _ => .bind (.add) fun _ =>
    .bind (.mul) fun _ => .bind (.add) fun _ => .bind (.mul) fun _ => .bind (.add) fun _ =>
    .bind (.mul) fun _ => .bind (.mul) fun _ => .bind (.mul) fun _ => .sub

/-! ### `OVF = fault` against `OVF = wrap` -/

/-- Whatever the first computation ends with, the second ends with too. -/
def EndsLike {α : Type} (x y : Except Cause α) : Prop := ∀ a, x = .ok a → y = .ok a

theorem EndsLike.refl {α : Type} (x : Except Cause α) : EndsLike x x := fun _ h => h

theorem EndsLike.bind {α β : Type} {x y : Except Cause α} {f g : α → Except Cause β}
    (hx : EndsLike x y) (hf : ∀ a, EndsLike (f a) (g a)) : EndsLike (x >>= f) (y >>= g) := by
  intro b h
  obtain ⟨a, ha, hb⟩ := bind_eq_ok.mp h
  exact bind_eq_ok.mpr ⟨a, hx a ha, hf a b hb⟩

/-- A step that does not overflow has one value under both parameters (R17). -/
theorem chk_endsLike {n : Nat} (hn : 0 < n) (v : Int) : EndsLike (chk .fault n v) (chk .wrap n v) := by
  intro a h
  cases hf : fitsS n v with
  | true =>
    rw [chk_fault_of_fits hf] at h
    injection h with h
    rw [chk_wrap, wrapS_of_fits hn hf, h]
  | false =>
    rw [chk_fault_of_not_fits hf] at h
    cases h

theorem sdiv_endsLike {n : Nat} (hn : 0 < n) (a b : Int) : EndsLike (sdiv .fault n a b) (sdiv .wrap n a b) := by
  unfold sdiv
  by_cases h : b = 0
  · rw [if_pos h, if_pos h]; exact .refl _
  · rw [if_neg h, if_neg h]; exact chk_endsLike hn _

/-! ### The coefficients a function reads -/

/-- Two coefficient files agree on the entries listed. -/
def AgreeOn (ks : List (Fin 18)) (cal cal' : Coeffs) : Prop := ∀ k ∈ ks, cal[k] = cal'[k]

/-- `t_comp_fine` reads entries 0..2 alone (R41). -/
theorem tCompFine_congr {c d : Coeffs} (h : AgreeOn tcompEntries c d) (o : Ovf) (adcT : Int) :
    tCompFine o c adcT = tCompFine o d adcT := by
  have h1 : c.digT1 = d.digT1 := h 0 (by decide)
  have h2 : c.digT2 = d.digT2 := h 1 (by decide)
  have h3 : c.digT3 = d.digT3 := h 2 (by decide)
  unfold tCompFine
  rw [h1, h2, h3]

/-- `p_comp` reads entries 3..11 alone (R41). -/
theorem pComp_congr {c d : Coeffs} (h : AgreeOn pcompEntries c d) (o : Ovf) (tFine adcP : Int) :
    pComp o c tFine adcP = pComp o d tFine adcP := by
  have h1 : c.digP1 = d.digP1 := h 3 (by decide)
  have h2 : c.digP2 = d.digP2 := h 4 (by decide)
  have h3 : c.digP3 = d.digP3 := h 5 (by decide)
  have h4 : c.digP4 = d.digP4 := h 6 (by decide)
  have h5 : c.digP5 = d.digP5 := h 7 (by decide)
  have h6 : c.digP6 = d.digP6 := h 8 (by decide)
  have h7 : c.digP7 = d.digP7 := h 9 (by decide)
  have h8 : c.digP8 = d.digP8 := h 10 (by decide)
  have h9 : c.digP9 = d.digP9 := h 11 (by decide)
  have hn : pCompNorm o c tFine = pCompNorm o d tFine := by
    unfold pCompNorm
    rw [h1, h2, h3, h4, h5, h6]
  have hs : ∀ v1 v2, pCompScale o c v1 v2 adcP = pCompScale o d v1 v2 adcP := by
    intro v1 v2
    unfold pCompScale
    rw [h7, h8, h9]
  unfold pComp
  simp only [hn, hs]

/-- `h_comp_pre` reads entries 12..17 alone (R41). -/
theorem hCompPre_congr {c d : Coeffs} (h : AgreeOn hcompEntries c d) (o : Ovf) (tFine adcH : Int) :
    hCompPre o c tFine adcH = hCompPre o d tFine adcH := by
  have h1 : c.digH1 = d.digH1 := h 12 (by decide)
  have h2 : c.digH2 = d.digH2 := h 13 (by decide)
  have h3 : c.digH3 = d.digH3 := h 14 (by decide)
  have h4 : c.digH4 = d.digH4 := h 15 (by decide)
  have h5 : c.digH5 = d.digH5 := h 16 (by decide)
  have h6 : c.digH6 = d.digH6 := h 17 (by decide)
  unfold hCompPre
  rw [h1, h2, h3, h4, h5, h6]

end Sys2Proof.Machine
end

