-- ==== Sys2Proof/Laws/Faults.lean ====
section
/-!
SUPPORT. What an operation's own rule can raise, and what it has found in order when it ends well (R230, R237).
-/

namespace Sys2Proof.Machine

/-- Readiness raises CalUnwritten alone, and only for entries not all written (R180). -/
theorem needCal_error {s : State} {ks : List (Fin 18)} {c : Cause} (h : s.needCal ks = .error c) :
    c = .calUnwritten ∧ ¬ s.CalReady ks := by
  by_cases hr : s.CalReady ks
  · rw [needCal_ready hr] at h; cases h
  · rw [needCal_unready hr] at h
    exact ⟨by injection h with h; exact h.symm, hr⟩

/-- Readiness that raises nothing found every entry written (R180). -/
theorem needCal_ok {s : State} {ks : List (Fin 18)} {u : Unit} (h : s.needCal ks = .ok u) : s.CalReady ks := by
  by_contra hr
  rw [needCal_unready hr] at h
  cases h

/-- An index that is found is the operand's value (R153). -/
theorem calIndex_ok {w : Word} {k : Fin 18} (h : calIndex w = .ok k) : w.toNat = k.val := by
  by_cases hl : w.toNat < 18
  · rw [calIndex_of_lt hl] at h
    injection h with h
    rw [← h]
  · rw [calIndex_of_ge (by omega)] at h; cases h

/-- An index raises BadIndex alone, above 17 (R153). -/
theorem calIndex_error {w : Word} {c : Cause} (h : calIndex w = .error c) : c = .badIndex ∧ 17 < w.toNat := by
  by_cases hl : w.toNat < 18
  · rw [calIndex_of_lt hl] at h; cases h
  · rw [calIndex_of_ge (by omega)] at h
    exact ⟨by injection h with h; exact h.symm, by omega⟩

/-- An FX10 division raises DivideByZero alone, for a zero divisor (R118). -/
theorem fx10Div_error {a b : Word} {c : Cause} (h : fx10Div a b = .error c) : c = .divideByZero ∧ b = 0 := by
  unfold fx10Div at h
  split at h
  · rename_i h0
    exact ⟨by injection h with h; exact h.symm, BitVec.eq_of_toInt_eq (by simpa [s32] using h0)⟩
  · cases h

/-- An FX8 division raises DivideByZero alone, for a zero divisor (R123). -/
theorem fx8Div_error {a b : Word} {c : Cause} (h : fx8Div a b = .error c) : c = .divideByZero ∧ b = 0 := by
  unfold fx8Div at h
  split at h
  · rename_i h0
    exact ⟨by injection h with h; exact h.symm, BitVec.eq_of_toNat_eq (by simpa [u32] using h0)⟩
  · cases h

/-- What each operation's own rule can raise, and when (R230). -/
theorem bodyOf_error {i : Instr} {s : State} {c : Cause} (h : bodyOf i s = .error c) :
    (c = .badIndex ∧ (i = .wrcal ∨ i = .rdcal) ∧ 17 < s.opa.toNat) ∨
    (c = .calUnwritten ∧ ¬ s.CalReady (calEntriesRead i s.opa)) ∨
    (c = .divideByZero ∧ (i = .fxdiv10 ∨ i = .fxdiv8) ∧ s.opb = 0) ∨
    (c = .overflow ∧ s.params.ovf = .fault ∧ (i = .tcomp ∨ i = .pcomp ∨ i = .hcomp) ∧
      s.CalReady (calEntriesRead i s.opa)) := by
  cases i with
  | tcomp =>
    simp only [bodyOf, tcompBody, bind_eq_error] at h
    rcases h with h | ⟨_, h0, h | ⟨tf, _, h | ⟨tc, _, h⟩⟩⟩
    · exact .inr (.inl (needCal_error h))
    · exact .inr (.inr (.inr ⟨(tCompFine_onlyOverflow _ _ _ _ h).2, (tCompFine_onlyOverflow _ _ _ _ h).1, by simp,
        needCal_ok h0⟩))
    · exact .inr (.inr (.inr ⟨(tCompCenti_onlyOverflow _ _ _ h).2, (tCompCenti_onlyOverflow _ _ _ h).1, by simp,
        needCal_ok h0⟩))
    · cases h
  | pcomp =>
    simp only [bodyOf, pcompBody, bind_eq_error] at h
    rcases h with h | ⟨_, h0, h | ⟨p, _, h⟩⟩
    · exact .inr (.inl (needCal_error h))
    · exact .inr (.inr (.inr ⟨(pComp_onlyOverflow _ _ _ _ _ h).2, (pComp_onlyOverflow _ _ _ _ _ h).1, by simp,
        needCal_ok h0⟩))
    · cases h
  | hcomp =>
    simp only [bodyOf, hcompBody, bind_eq_error] at h
    rcases h with h | ⟨_, h0, h | ⟨p, _, h⟩⟩
    · exact .inr (.inl (needCal_error h))
    · exact .inr (.inr (.inr ⟨(hCompPre_onlyOverflow _ _ _ _ _ h).2, (hCompPre_onlyOverflow _ _ _ _ _ h).1, by simp,
        needCal_ok h0⟩))
    · cases h
  | fxdiv10 =>
    simp only [bodyOf, fxdiv10Body, bind_eq_error] at h
    rcases h with h | ⟨q, _, h⟩
    · exact .inr (.inr (.inl ⟨(fx10Div_error h).1, by simp, (fx10Div_error h).2⟩))
    · cases h
  | fxdiv8 =>
    simp only [bodyOf, fxdiv8Body, bind_eq_error] at h
    rcases h with h | ⟨q, _, h⟩
    · exact .inr (.inr (.inl ⟨(fx8Div_error h).1, by simp, (fx8Div_error h).2⟩))
    · cases h
  | wrcal =>
    simp only [bodyOf, wrcalBody, bind_eq_error] at h
    rcases h with h | ⟨k, _, h⟩
    · exact .inl ⟨(calIndex_error h).1, by simp, (calIndex_error h).2⟩
    · cases h
  | rdcal =>
    simp only [bodyOf, rdcalBody, bind_eq_error] at h
    rcases h with h | ⟨k, hk, h | ⟨_, _, h⟩⟩
    · exact .inl ⟨(calIndex_error h).1, by simp, (calIndex_error h).2⟩
    · have he := needCal_error h
      have hw := calIndex_ok hk
      refine .inr (.inl ⟨he.1, ?_⟩)
      have : calEntriesRead .rdcal s.opa = [k] := by
        simp [calEntriesRead, hw]
      rw [this]
      exact he.2
    · cases h
  | _ => cases h

/-- What an operation's own rule found in order when it ended well (R237). -/
theorem bodyOf_ok_ready {i : Instr} {s t : State} (h : bodyOf i s = .ok t) :
    s.CalReady (calEntriesRead i s.opa) ∧ ((i = .wrcal ∨ i = .rdcal) → s.opa.toNat ≤ 17) ∧
    ((i = .fxdiv10 ∨ i = .fxdiv8) → s.opb ≠ 0) := by
  cases i with
  | tcomp =>
    simp only [bodyOf, tcompBody, bind_eq_ok] at h
    obtain ⟨_, h0, _⟩ := h
    exact ⟨needCal_ok h0, by simp, by simp⟩
  | pcomp =>
    simp only [bodyOf, pcompBody, bind_eq_ok] at h
    obtain ⟨_, h0, _⟩ := h
    exact ⟨needCal_ok h0, by simp, by simp⟩
  | hcomp =>
    simp only [bodyOf, hcompBody, bind_eq_ok] at h
    obtain ⟨_, h0, _⟩ := h
    exact ⟨needCal_ok h0, by simp, by simp⟩
  | fxdiv10 =>
    simp only [bodyOf, fxdiv10Body, bind_eq_ok] at h
    obtain ⟨q, hq, _⟩ := h
    exact ⟨by simp [calEntriesRead, State.CalReady], by simp, fun _ h0 => by simp [fx10Div, s32, h0] at hq⟩
  | fxdiv8 =>
    simp only [bodyOf, fxdiv8Body, bind_eq_ok] at h
    obtain ⟨q, hq, _⟩ := h
    exact ⟨by simp [calEntriesRead, State.CalReady], by simp, fun _ h0 => by simp [fx8Div, u32, h0] at hq⟩
  | wrcal =>
    simp only [bodyOf, wrcalBody, bind_eq_ok] at h
    obtain ⟨k, hk, _⟩ := h
    have := calIndex_ok hk
    exact ⟨by simp [calEntriesRead, State.CalReady], fun _ => by omega, by simp⟩
  | rdcal =>
    simp only [bodyOf, rdcalBody, bind_eq_ok] at h
    obtain ⟨k, hk, _, h0, _⟩ := h
    have hw := calIndex_ok hk
    have hr : calEntriesRead .rdcal s.opa = [k] := by
      simp [calEntriesRead, hw]
    rw [hr]
    exact ⟨needCal_ok h0, fun _ => by omega, by simp⟩
  | _ => exact ⟨by simp [calEntriesRead, State.CalReady], by simp, by simp⟩

end Sys2Proof.Machine
end

