-- ==== Sys2Proof/Laws/HostDecode.lean ====
section
/-!
SUPPORT. What reading a block of sensor bytes gives, and which addresses a block has (R160, R165).
-/

namespace Sys2Proof.Machine

/-- Entry `i` of a block is the byte at its base plus `i`. -/
@[simp] theorem readBlock_getElem (sensor : SensorBytes) (base n i : Nat) (h : i < n) :
    (readBlock sensor base n)[i] = sensor (base + i) := by
  simp [readBlock]

/-- A block depends only on the bytes at its own addresses. -/
theorem readBlock_congr {f g : SensorBytes} {base n : Nat} (h : ∀ a ∈ blockAddresses base n, f a = g a) :
    readBlock f base n = readBlock g base n := by
  apply Vector.ext
  intro i hi
  simp only [readBlock_getElem]
  rw [h (base + i) (List.mem_map_of_mem (List.mem_range.mpr hi))]

/-- The addresses of a block of `n` bytes. -/
@[simp] theorem mem_blockAddresses {base n a : Nat} : a ∈ blockAddresses base n ↔ base ≤ a ∧ a < base + n := by
  simp only [blockAddresses, List.mem_map, List.mem_range]
  constructor
  · rintro ⟨i, hi, rfl⟩
    omega
  · rintro ⟨h1, h2⟩
    exact ⟨a - base, by omega, by omega⟩

end Sys2Proof.Machine
end

