-- ==== Sys2Proof/Laws/PerInstr.lean ====
section
/-!
SUPPORT. A law of every instruction as syntax: its command word has its reserved bits 0 and its `OP` from R83.
-/

namespace Sys2Proof.Laws.CommandWord

/-- The instruction's command word: reserved bits 0, `OP` the table's (R80, R83), inside one of the groups of R82. -/
def Statement (i : Instr) : Prop :=
  reservedField (encode i) = 0 ∧ opField (encode i) = opOf i ∧
  ((0x01 ≤ (opOf i).toNat ∧ (opOf i).toNat ≤ 0x03) ∨ (0x10 ≤ (opOf i).toNat ∧ (opOf i).toNat ≤ 0x13) ∨
    (0x18 ≤ (opOf i).toNat ∧ (opOf i).toNat ≤ 0x1B) ∨ (0x20 ≤ (opOf i).toNat ∧ (opOf i).toNat ≤ 0x21))

theorem tcomp : Statement .tcomp := by unfold Statement; decide
theorem pcomp : Statement .pcomp := by unfold Statement; decide
theorem hcomp : Statement .hcomp := by unfold Statement; decide
theorem fxnew10 : Statement .fxnew10 := by unfold Statement; decide
theorem fxint10 : Statement .fxint10 := by unfold Statement; decide
theorem fxfrac10 : Statement .fxfrac10 := by unfold Statement; decide
theorem fxdiv10 : Statement .fxdiv10 := by unfold Statement; decide
theorem fxnew8 : Statement .fxnew8 := by unfold Statement; decide
theorem fxint8 : Statement .fxint8 := by unfold Statement; decide
theorem fxfrac8 : Statement .fxfrac8 := by unfold Statement; decide
theorem fxdiv8 : Statement .fxdiv8 := by unfold Statement; decide
theorem wrcal : Statement .wrcal := by unfold Statement; decide
theorem rdcal : Statement .rdcal := by unfold Statement; decide

end Sys2Proof.Laws.CommandWord
end

