-- ==== Sys2Proof/Laws/Window.lean ====
section
/-!
SUPPORT. Where an access to a window register lands, and what one step does with the host's next event.
-/

namespace Sys2Proof.Machine

/-- The offset of an address inside the window is its distance from the base (R60). -/
theorem windowOffset_add (b off : Nat) (h : off < 32) : windowOffset b (b + off) = some off := by
  unfold windowOffset
  rw [if_pos (by omega)]
  simp

/-- An address outside the window has no offset (R60). -/
theorem windowOffset_outside {b a : Nat} (h : a < b ∨ b + 32 ≤ a) : windowOffset b a = none := by
  unfold windowOffset
  rw [if_neg (by omega)]

/-- Every register's offset lies in the window. -/
theorem offset_lt (r : WinReg) : r.offset < 32 := by cases r <;> decide

/-- A word access at a register's offset reaches that register (R61). -/
@[simp] theorem accessTarget_offset (r : WinReg) : accessTarget r.offset 4 = some r := by cases r <;> rfl

/-- An access of another width reaches no register (R62). -/
theorem accessTarget_width {off width : Nat} (h : width ≠ 4) : accessTarget off width = none := by
  simp [accessTarget, h]

/-- An access reaches a register exactly at that register's offset, four bytes wide (R61, R62). -/
theorem accessTarget_eq_some {off width : Nat} {r : WinReg} :
    accessTarget off width = some r ↔ width = 4 ∧ off = r.offset := by
  constructor
  · intro h
    unfold accessTarget at h
    split at h
    · refine ⟨‹_›, ?_⟩
      unfold registerAt at h
      split at h <;> cases h <;> rfl
    · cases h
  · rintro ⟨rfl, rfl⟩
    exact accessTarget_offset r

/-- One step is the next event's effect on the state without it (R36, R66). -/
theorem step_event {s : State} {e : HostEvent} {rest : List HostEvent} (h : s.inputs = e :: rest) :
    step s = performEvent { s with inputs := rest } e := by
  simp [step, State.takeInput, h]

/-- A presented event is the next one. -/
theorem step_present (s : State) (e : HostEvent) : step (s.present e) = performEvent s e := by
  simp [step, State.takeInput, State.present]

/-- A word write at a register's address reaches that register (R61, R64). -/
theorem performAccess_write (s : State) (r : WinReg) (v : Word) :
    performAccess s (.write (s.params.engineBase + r.offset) 4 v) = writeRegister s r v := by
  simp [performAccess, windowOffset_add _ _ (offset_lt r)]

/-- A word read at a register's address reaches that register (R61, R65). -/
theorem performAccess_read (s : State) (r : WinReg) :
    performAccess s (.read (s.params.engineBase + r.offset) 4) = .next (readRegister s r) := by
  simp [performAccess, windowOffset_add _ _ (offset_lt r)]

end Sys2Proof.Machine
end

