-- ==== Sys2Proof/Machine/HostProgram.lean ====
section
/-!
DEFINITION. The host-program notation (R88), its pseudo-instructions (R89), the bring-up and the measurement cycle
(R262, R263), and what running such a program does to the engine: one bus access a statement, each through `step`.
-/

namespace Sys2Proof.Machine

/-- A name a host program gives to a value it has read (R88). -/
abbrev HostName := Nat

/-- A value in a host program: a 32-bit word, or a name given by an earlier `rd`. -/
inductive HostValue where
  | lit (v : Word)
  | named (x : HostName)
  deriving DecidableEq, Repr

/-- The statement forms of R88. -/
inductive HostStmt where
  /-- `wr OPA, v`. -/
  | wrOpa (v : HostValue)
  /-- `wr OPB, v`. -/
  | wrOpb (v : HostValue)
  /-- `cmd MNEMONIC`. -/
  | cmd (i : Instr)
  /-- `rd REG -> name`. -/
  | rd (r : WinReg) (x : HostName)
  deriving DecidableEq, Repr

/-- The pseudo-instructions of R89. -/
inductive HostPseudo where
  | tcomp (a : HostValue)
  | pcomp (a tf : HostValue)
  | hcomp (a tf : HostValue)
  | fxnew10 (i f : HostValue)
  | fxint10 (w : HostValue)
  | fxfrac10 (w : HostValue)
  | fxdiv10 (a b : HostValue)
  | fxnew8 (i f : HostValue)
  | fxint8 (w : HostValue)
  | fxfrac8 (w : HostValue)
  | fxdiv8 (a b : HostValue)
  | wrcal (k v : HostValue)
  | rdcal (k : HostValue)
  /-- `tdeg c`; `n` is the name the expansion gives to the FX10 word it reads back. -/
  | tdeg (c : HostValue) (n : HostName)
  deriving DecidableEq, Repr

/-- A command with one operand: `wr OPA, a` ; `cmd`. -/
def unary (i : Instr) (a : HostValue) : List HostStmt := [.wrOpa a, .cmd i]

/-- A command with two operands: `wr OPA, a` ; `wr OPB, b` ; `cmd`. -/
def binary (i : Instr) (a b : HostValue) : List HostStmt := [.wrOpa a, .wrOpb b, .cmd i]

/-- The FX10 word of 100.0 (R89). -/
def fx10Hundred : Word := 0x00019000

/-- The expansion of each pseudo-instruction (R89). -/
def HostPseudo.expand : HostPseudo → List HostStmt
  | .tcomp a     => unary .tcomp a
  | .pcomp a tf  => binary .pcomp a tf
  | .hcomp a tf  => binary .hcomp a tf
  | .fxnew10 i f => binary .fxnew10 i f
  | .fxint10 w   => unary .fxint10 w
  | .fxfrac10 w  => unary .fxfrac10 w
  | .fxdiv10 a b => binary .fxdiv10 a b
  | .fxnew8 i f  => binary .fxnew8 i f
  | .fxint8 w    => unary .fxint8 w
  | .fxfrac8 w   => unary .fxfrac8 w
  | .fxdiv8 a b  => binary .fxdiv8 a b
  | .wrcal k v   => binary .wrcal k v
  | .rdcal k     => unary .rdcal k
  | .tdeg c n    =>
    binary .fxnew10 c (.lit 0) ++ [.rd .res0 n] ++ binary .fxdiv10 (.named n) (.lit fx10Hundred)

/-- The values a host program has named, the latest first. -/
abbrev HostEnv := List (HostName × Word)

/-- A host value as a word; none for a name not given yet (log 15). -/
def HostValue.resolve (env : HostEnv) : HostValue → Option Word
  | .lit v   => some v
  | .named x => env.lookup x

/-- The bus access of a statement (R88). -/
def HostStmt.toAccess (engineBase : Nat) (env : HostEnv) : HostStmt → Option Access
  | .wrOpa v => (v.resolve env).map (.write (engineBase + WinReg.opa.offset) 4)
  | .wrOpb v => (v.resolve env).map (.write (engineBase + WinReg.opb.offset) 4)
  | .cmd i   => some (.write (engineBase + WinReg.cmd.offset) 4 (encode i))
  | .rd r _  => some (.read (engineBase + r.offset) 4)

/-- The names after a statement: a read names the word the window answered (R88). -/
def HostStmt.bindAnswer (env : HostEnv) (answers : List Word) : HostStmt → HostEnv
  | .wrOpa _ => env
  | .wrOpb _ => env
  | .cmd _   => env
  | .rd _ x  =>
    match answers.getLast? with
    | none   => env
    | some v => (x, v) :: env

/-- Run a host program: each statement is one access, presented to the engine and taken by one step, in program order
(R36, R67). None where a name has no value or a step stops. -/
def runHost : List HostStmt → HostEnv → State → Option (HostEnv × State)
  | [], env, s => some (env, s)
  | st :: rest, env, s =>
    match st.toAccess s.params.engineBase env with
    | none => none
    | some a =>
      match step (s.present (.access a)) with
      | .next t => runHost rest (st.bindAnswer env t.answers) t
      | .fault _ => none
      | .refused _ => none

/-- The `wrcal` statements that load a coefficient set (R262 step 4). The index order is the model's (DESIGN CHOICE, log 21;
PROG1 of 95_test_vectors.md has it): R262 gives none. -/
def loadCoefficients (cal : Vector Int 18) : List HostStmt :=
  (List.finRange 18).flatMap fun k => (HostPseudo.wrcal (.lit (word (k.val : Int))) (.lit (word cal[k]))).expand

/-- The bring-up of R262 from a reset engine: with another identity byte than the expected one the host loads nothing
(R164). -/
def bringUp (id : Byte) (b : CalBlock1) (c : CalBlock2) : List HostStmt :=
  if identityOk id then loadCoefficients (decodeCalibration b c) else []

/-- The bring-up on the bytes the sensor gives at the addresses of R3 and R160. -/
def bringUpFrom (sensor : SensorBytes) : List HostStmt :=
  bringUp (sensor identityAddress) (readCalBlock1 sensor) (readCalBlock2 sensor)

/-- The measurement cycle of R263 for one raw measurement: temperature first; its `t_fine` is named 0 and goes to the
other two. The temperature is named 1, the pressure 2, the humidity 3. Pressure before humidity, as R263 lists them, and without the
optional `tdeg`, is the model's (DESIGN CHOICE, log 21): R263 allows either order. -/
def measurementCycle (adcT adcP adcH : Word) : List HostStmt :=
  (HostPseudo.tcomp (.lit adcT)).expand ++ [.rd .res0 0, .rd .res1 1] ++
  (HostPseudo.pcomp (.lit adcP) (.named 0)).expand ++ [.rd .res0 2] ++
  (HostPseudo.hcomp (.lit adcH) (.named 0)).expand ++ [.rd .res0 3]

/-- The measurement cycle on the raw measurement block (R166, R263). -/
def measureRaw (m : RawBlock) : List HostStmt :=
  measurementCycle (word (decodeAdcT m)) (word (decodeAdcP m)) (word (decodeAdcH m))

/-- The measurement cycle on the bytes the sensor gives at the addresses of R165. -/
def measureFrom (sensor : SensorBytes) : List HostStmt := measureRaw (readRawBlock sensor)

end Sys2Proof.Machine
end

