-- ==== Sys2Proof/Tests/Slice0.lean ====
section
/-!
SUPPORT. Tests. Expected values are the spec's own worked examples and vectors (95_test_vectors.md), named in each
comment. The witnesses show states and operands that meet the hypotheses of the statements, clause by clause.
-/

namespace Sys2Proof.Tests

open Sys2Proof Sys2Proof.Machine Sys2Proof.Statement

/-! ### Small states -/

/-- The calibration set CAL-A (95_test_vectors.md section 0). -/
def calA : Vector Int 18 :=
  #v[28765, 27210, 50, 36477, -10685, 3024, 2855, 140, -7, 15500, -14600, 6000, 75, 362, 0, 313, 50, 30]

/-- A reset engine with both operands written. -/
def operands (o : Ovf) (a b : Word) : State := withOperands (State.powerOn { ovf := o, engineBase := 0x1000 }) a b

/-- The same with a coefficient set loaded. -/
def loadedWith (cal : Vector Int 18) (o : Ovf) (a b : Word) : State :=
  { operands o a b with cal := cal, calw := Vector.replicate 18 true }

/-- The same with CAL-A loaded. -/
def loaded (o : Ovf) (a b : Word) : State := loadedWith calA o a b

/-- The same with one entry not written. -/
def lacking (k : Fin 18) (o : Ovf) (a b : Word) : State :=
  { loaded o a b with calw := (Vector.replicate 18 true).set k false }

/-- A halted engine with DivideByZero recorded (95_test_vectors.md PROG3, step 4). -/
def halted : State := faulted (operands .wrap 0x00000400 0) 0x02

/-- The next state of an outcome. -/
def next? (r : Result) : Option State :=
  match r with
  | .next t => some t
  | .fault _ => none
  | .refused _ => none

/-- `RES0` of the next state, where it is written. -/
def res0? (r : Result) : Option Word :=
  match next? r with
  | none => none
  | some t => if t.wRes0 then some t.res0 else none

/-- `RES1` of the next state, where it is written. -/
def res1? (r : Result) : Option Word :=
  match next? r with
  | none => none
  | some t => if t.wRes1 then some t.res1 else none

/-- `STATUS` of the next state. -/
def status? (r : Result) : Option Word := (next? r).map State.status

/-- `CALMASK` of the next state. -/
def calmask? (r : Result) : Option Word := (next? r).map State.calmask

/-- The next state of a word write of `c` to `CMD`. -/
def command (s : State) (c : Word) : Result := writeAt s 0x00 c

/-! ### Decoding: each word written out from rules R80 and R83, reserved bits first -/

theorem test_decode_tcomp : decode 0b00000000000000000000000000000001 = .ok .tcomp := by decide
theorem test_decode_pcomp : decode 0b00000000000000000000000000000010 = .ok .pcomp := by decide
theorem test_decode_hcomp : decode 0b00000000000000000000000000000011 = .ok .hcomp := by decide
theorem test_decode_fxnew10 : decode 0b00000000000000000000000000010000 = .ok .fxnew10 := by decide
theorem test_decode_fxint10 : decode 0b00000000000000000000000000010001 = .ok .fxint10 := by decide
theorem test_decode_fxfrac10 : decode 0b00000000000000000000000000010010 = .ok .fxfrac10 := by decide
theorem test_decode_fxdiv10 : decode 0b00000000000000000000000000010011 = .ok .fxdiv10 := by decide
theorem test_decode_fxnew8 : decode 0b00000000000000000000000000011000 = .ok .fxnew8 := by decide
theorem test_decode_fxint8 : decode 0b00000000000000000000000000011001 = .ok .fxint8 := by decide
theorem test_decode_fxfrac8 : decode 0b00000000000000000000000000011010 = .ok .fxfrac8 := by decide
theorem test_decode_fxdiv8 : decode 0b00000000000000000000000000011011 = .ok .fxdiv8 := by decide
theorem test_decode_wrcal : decode 0b00000000000000000000000000100000 = .ok .wrcal := by decide
theorem test_decode_rdcal : decode 0b00000000000000000000000000100001 = .ok .rdcal := by decide

/-- R86, vectors F1 to F3: what selects no operation. -/
theorem test_decode_illegal :
    decode 0x00000000 = .error .unassignedOp ∧ decode 0x00000004 = .error .unassignedOp ∧
    decode 0x0000000F = .error .unassignedOp ∧ decode 0x00000014 = .error .unassignedOp ∧
    decode 0x0000001C = .error .unassignedOp ∧ decode 0x00000022 = .error .unassignedOp ∧
    decode 0x000000FF = .error .unassignedOp ∧ decode 0x00000101 = .error .reservedBits ∧
    decode 0x80000001 = .error .reservedBits := by decide

/-- R63: lane 0 carries the low byte, so FXDIV10 is the bytes 13 00 00 00; a command is exactly one word (R80). -/
theorem test_decode_bytes :
    decodeBytes [0x13, 0x00, 0x00, 0x00, 0xAA] = .ok (.fxdiv10, [0xAA]) ∧
    decodeBytes [0x13, 0x00, 0x00] = .error .truncated ∧ decodeTableWord 32 0x21 = some .rdcal ∧
    decodeTableWord 32 0x22 = none := by decide

/-- Every instruction encodes to its word of R83. -/
theorem test_encode :
    encode .tcomp = 0x00000001 ∧ encode .fxdiv8 = 0x0000001B ∧ encode .rdcal = 0x00000021 := by decide

/-! ### Well-formedness -/

/-- R61, R62: an ill-formed access for each check, refused: outside the window, below it, another width, a misaligned
offset, and each direction the window map does not admit. -/
theorem test_wellFormed_refuses :
    (Access.read 0x1020 4).wellFormed 0x1000 = false ∧ (Access.write 0x0FFC 4 0).wellFormed 0x1000 = false ∧
    (Access.read 0x1014 2).wellFormed 0x1000 = false ∧ (Access.write 0x1006 4 0).wellFormed 0x1000 = false ∧
    (Access.read 0x1000 4).wellFormed 0x1000 = false ∧ (Access.write 0x100C 4 0).wellFormed 0x1000 = false ∧
    (Access.write 0x1014 4 0).wellFormed 0x1000 = false ∧ (Access.write 0x1018 4 0).wellFormed 0x1000 = false ∧
    (Access.read 0x101C 4).wellFormed 0x1000 = false ∧ (Access.write 0x101C 4 0).wellFormed 0x1000 = false := by decide

/-- R61: the accesses the window map admits, and every instruction. -/
theorem test_wellFormed_admits :
    (Access.write 0x1000 4 0).wellFormed 0x1000 = true ∧ (Access.read 0x1004 4).wellFormed 0x1000 = true ∧
    (Access.write 0x1008 4 0).wellFormed 0x1000 = true ∧ (Access.read 0x1018 4).wellFormed 0x1000 = true ∧
    Instr.fxdiv10.wellFormed = true := by decide

/-! ### The fixed-point operations (95_test_vectors.md sections 2.1 and 2.2) -/

/-- FX10-1, FX10-3, FX10-4. -/
theorem test_fxnew10 :
    res0? (exec .fxnew10 (operands .wrap 0xFFFFFFFF 512)) = some 0xFFFFFE00 ∧
    res0? (exec .fxnew10 (operands .wrap 5 0x000007FF)) = some 0x000017FF ∧
    res0? (exec .fxnew10 (operands .fault 0x00200000 0)) = some 0x80000000 := by decide

/-- FX10-7, FX10-8, FX10-9. -/
theorem test_fxint10 :
    res0? (exec .fxint10 (operands .wrap 0xFFFFFE00 0)) = some 0xFFFFFFFF ∧
    res0? (exec .fxint10 (operands .wrap 0x80000000 0)) = some 0xFFE00000 ∧
    res0? (exec .fxint10 (operands .wrap 0x7FFFFFFF 0)) = some 0x001FFFFF := by decide

/-- FX10-12, FX10-13. -/
theorem test_fxfrac10 :
    res0? (exec .fxfrac10 (operands .wrap 0xFFFFFE00 0)) = some 0x00000200 ∧
    res0? (exec .fxfrac10 (operands .wrap 0x7FFFFFFF 0)) = some 0x000003FF := by decide

/-- FX10-15 to FX10-21. -/
theorem test_fxdiv10 :
    res0? (exec .fxdiv10 (operands .wrap 0x00219800 0x00019000)) = some 0x00005600 ∧
    res0? (exec .fxdiv10 (operands .wrap 0xFFFFFC00 0x00000C00)) = some 0xFFFFFEAB ∧
    res0? (exec .fxdiv10 (operands .wrap 0x00000400 0xFFFFF400)) = some 0xFFFFFEAB ∧
    res0? (exec .fxdiv10 (operands .wrap 0xFFFFFFFF 0x00000C00)) = some 0x00000000 ∧
    res0? (exec .fxdiv10 (operands .fault 0x7FFFFFFF 0x00000001)) = some 0xFFFFFC00 ∧
    res0? (exec .fxdiv10 (operands .fault 0x80000000 0xFFFFFC00)) = some 0x80000000 ∧
    res0? (exec .fxdiv10 (operands .wrap 0x80000000 0x00000001)) = some 0x00000000 := by decide

/-- FX10-24: DivideByZero, and no result. -/
theorem test_fxdiv10_zero :
    status? (exec .fxdiv10 (operands .wrap 0x00000400 0)) = some 0x00000201 ∧
    res0? (exec .fxdiv10 (operands .wrap 0x00000400 0)) = none := by decide

/-- FX8-1 to FX8-4. -/
theorem test_fxnew8 :
    res0? (exec .fxnew8 (operands .wrap 101325 128)) = some 0x018BCD80 ∧
    res0? (exec .fxnew8 (operands .fault 0x01000000 0)) = some 0x00000000 ∧
    res0? (exec .fxnew8 (operands .wrap 1 0x000001FF)) = some 0x000001FF ∧
    res0? (exec .fxnew8 (operands .wrap 0xFFFFFFFF 0xFF)) = some 0xFFFFFFFF := by decide

/-- FX8-5, FX8-6. -/
theorem test_fxint8 :
    res0? (exec .fxint8 (operands .wrap 0xFFFFFFFF 0)) = some 0x00FFFFFF ∧
    res0? (exec .fxint8 (operands .wrap 0x018E6A36 0)) = some 101994 := by decide

/-- FX8-7, FX8-8. -/
theorem test_fxfrac8 :
    res0? (exec .fxfrac8 (operands .wrap 0x018E6A36 0)) = some 54 ∧
    res0? (exec .fxfrac8 (operands .wrap 0xFFFFFFFF 0)) = some 0x000000FF := by decide

/-- FX8-9, FX8-11 to FX8-14. -/
theorem test_fxdiv8 :
    res0? (exec .fxdiv8 (operands .wrap 0x01C50E64 0x00006400)) = some 0x000487D2 ∧
    res0? (exec .fxdiv8 (operands .fault 0xFFFFFFFF 0x00000001)) = some 0xFFFFFF00 ∧
    res0? (exec .fxdiv8 (operands .wrap 0xFFFFFFFF 0x00000100)) = some 0xFFFFFFFF ∧
    res0? (exec .fxdiv8 (operands .wrap 0x80000000 0x00000100)) = some 0x80000000 ∧
    res0? (exec .fxdiv8 (operands .wrap 0x00000002 0x00000003)) = some 0x000000AA := by decide

/-- FX8-17: DivideByZero, and no result. -/
theorem test_fxdiv8_zero :
    status? (exec .fxdiv8 (operands .wrap 0x00000007 0)) = some 0x00000201 ∧
    res0? (exec .fxdiv8 (operands .wrap 0x00000007 0)) = none := by decide

/-! ### The coefficient file (95_test_vectors.md section 2.3) -/

/-- CAL-1 to CAL-6: the value kept and `CALMASK`. -/
theorem test_wrcal :
    (next? (exec .wrcal (operands .wrap 0 0x00012345))).map (fun t => (t.cal[0], t.calmask)) = some (9029, 0x00000001) ∧
    (next? (exec .wrcal (operands .wrap 1 0x00008000))).map (fun t => (t.cal[1], t.calmask)) =
      some (-32768, 0x00000002) ∧
    (next? (exec .wrcal (operands .wrap 17 0x000001FF))).map (fun t => (t.cal[17], t.calmask)) =
      some (-1, 0x00020000) ∧
    (next? (exec .wrcal (operands .wrap 12 0xFFFFFF4B))).map (fun t => (t.cal[12], t.calmask)) =
      some (75, 0x00001000) ∧
    (next? (exec .wrcal (operands .wrap 15 0xFFFFF139))).map (fun t => (t.cal[15], t.calmask)) =
      some (-3783, 0x00008000) := by decide

/-- CAL-7, CAL-10. -/
theorem test_wrcal_faults :
    status? (exec .wrcal (operands .wrap 18 1)) = some 0x00000501 ∧
    calmask? (exec .wrcal (operands .wrap 18 1)) = some 0 ∧
    status? (exec .wrcal { operands .wrap 5 0 with wOpb := false }) = some 0x00000601 := by decide

/-- The word RDCAL gives: CAL-2 and CAL-6's values, and a negative one of CAL-A. -/
theorem test_rdcal :
    res0? (exec .rdcal (loadedWith (calA.set 1 (-32768)) .wrap 1 0)) = some 0xFFFF8000 ∧
    res0? (exec .rdcal (loadedWith (calA.set 0 65535) .wrap 0 0)) = some 0x0000FFFF ∧
    res0? (exec .rdcal (loaded .wrap 8 0)) = some 0xFFFFFFF9 := by decide

/-- CAL-8, CAL-9. -/
theorem test_rdcal_faults :
    status? (exec .rdcal (operands .wrap 0xFFFFFFFF 0)) = some 0x00000501 ∧
    status? (exec .rdcal (operands .wrap 5 0)) = some 0x00000401 := by decide

/-! ### The compensation operations (95_test_vectors.md sections 2.5 to 2.7) -/

/-- T1, T2, T5, T7 under `OVF = fault`. -/
theorem test_tcomp :
    res0? (exec .tcomp (loaded .fault 526514 0)) = some 0x0001ADFA ∧
    res1? (exec .tcomp (loaded .fault 526514 0)) = some 0x00000866 ∧
    res0? (exec .tcomp (loaded .fault 0 0)) = some 0xFFF458A8 ∧
    res1? (exec .tcomp (loaded .fault 0 0)) = some 0xFFFFC5BB ∧
    res1? (exec .tcomp (loaded .fault 230120 0)) = some 0xFFFFE2DB ∧
    res0? (exec .tcomp (loaded .fault 460240 0)) = some 0 := by decide

/-- T6 under both values of `OVF`; a faulting TCOMP writes neither result. -/
theorem test_tcomp_overflow :
    res0? (exec .tcomp (loadedWith (calA.set 1 32767) .wrap 1048575 0)) = some 0xFFF1F81B ∧
    res1? (exec .tcomp (loadedWith (calA.set 1 32767) .wrap 1048575 0)) = some 0xFFFFB9D9 ∧
    status? (exec .tcomp (loadedWith (calA.set 1 32767) .fault 1048575 0)) = some 0x00010301 ∧
    res0? (exec .tcomp (loadedWith (calA.set 1 32767) .fault 1048575 0)) = none ∧
    res1? (exec .tcomp (loadedWith (calA.set 1 32767) .fault 1048575 0)) = none := by decide

/-- P1, P2, P4, P12 under `OVF = fault`. -/
theorem test_pcomp :
    res0? (exec .pcomp (loaded .fault 322858 110074)) = some 0x01C50E64 ∧
    res0? (exec .pcomp (loaded .fault 322858 120188)) = some 0x01C67216 ∧
    res0? (exec .pcomp (loaded .fault 1048576 128000)) = some 0xFFE61A8D ∧
    res0? (exec .pcomp (loadedWith (calA.set 3 0) .fault 322858 110074)) = some 0 := by decide

/-- P8, P10, P13 under both values of `OVF`. -/
theorem test_pcomp_overflow :
    res0? (exec .pcomp (loaded .wrap 415148 0x80000000)) = some 0xECAF0FC1 ∧
    res0? (exec .pcomp (loaded .wrap 0x80000000 110074)) = some 0xFD6D0FE0 ∧
    res0? (exec .pcomp (loadedWith (calA.set 3 0) .wrap 0x7FFFFFFF 0x80000000)) = some 0 ∧
    status? (exec .pcomp (loaded .fault 415148 0x80000000)) = some 0x00010301 ∧
    status? (exec .pcomp (loaded .fault 0x80000000 110074)) = some 0x00010301 ∧
    status? (exec .pcomp (loadedWith (calA.set 3 0) .fault 0x7FFFFFFF 0x80000000)) = some 0x00010301 := by decide

/-- H1, H2, H3, H4, H10 under `OVF = fault`. -/
theorem test_hcomp :
    res0? (exec .hcomp (loaded .fault 23549 110074)) = some 0x00004C63 ∧
    res0? (exec .hcomp (loaded .fault 23549 99523)) = some 0x00004CBE ∧
    res0? (exec .hcomp (loaded .fault 0 110074)) = some 0 ∧
    res0? (exec .hcomp (loaded .fault 65535 110074)) = some 0x00019000 ∧
    res0? (exec .hcomp (loaded .fault 0x7FFFFFFF 110074)) = some 0 := by decide

/-- H7, H8 under both values of `OVF`. -/
theorem test_hcomp_overflow :
    res0? (exec .hcomp (loaded .wrap 0 0x80000000)) = some 0 ∧
    res0? (exec .hcomp (loaded .wrap 65535 0x7FFFFFFF)) = some 0x00019000 ∧
    status? (exec .hcomp (loaded .fault 0 0x80000000)) = some 0x00010301 ∧
    status? (exec .hcomp (loaded .fault 65535 0x7FFFFFFF)) = some 0x00010301 := by decide

/-! ### The window and the faults (95_test_vectors.md section 2.8) -/

/-- F1, F2, F4, F6. -/
theorem test_command_faults :
    status? (command State.reset 0x00000000) = some 0x00000101 ∧
    status? (command State.reset 0x00000101) = some 0x00000101 ∧
    status? (command State.reset 0x00000010) = some 0x00000601 ∧
    status? (command (operands .wrap 1 0) 0x00000001) = some 0x00000401 := by decide

/-- F17: IllegalOp before DivideByZero; and R237's other neighbours: the operand before the index, the index before the
entry, the entry before the overflow. -/
theorem test_priority :
    status? (command (operands .wrap 1 0) 0x00000113) = some 0x00000101 ∧
    status? (command { operands .wrap 18 0 with wOpb := false } 0x00000020) = some 0x00000601 ∧
    status? (command (operands .wrap 18 0) 0x00000021) = some 0x00000501 ∧
    status? (command (lacking 2 .fault 0x7FFFFFFF 0) 0x00000001) = some 0x00010401 := by decide

/-- F8 to F12 and F15. -/
theorem test_access_faults :
    status? (writeAt State.reset 0x0C 5) = some 0x00000801 ∧ status? (writeAt State.reset 0x14 5) = some 0x00000801 ∧
    status? (writeAt State.reset 0x1C 5) = some 0x00000801 ∧ status? (readAt State.reset 0x0C) = some 0x00000701 ∧
    status? (readAt State.reset 0x00) = some 0x00000801 ∧ status? (writeAt State.reset 0x06 5) = some 0x00000801 ∧
    status? (step (State.reset.present (.access (.read 0x14 2)))) = some 0x00000801 := by decide

/-- F13, F14: `STATUS` and `CALMASK` right after reset, and what a read of each answers. -/
theorem test_reset_reads :
    (next? (readAt State.reset 0x14)).map State.answers = some [0x00000000] ∧
    (next? (readAt State.reset 0x18)).map State.answers = some [0x00000000] ∧
    (next? (readAt (State.powerOn { ovf := .fault, engineBase := 0x1000 }) 0x14)).map State.answers =
      some [0x00010000] := by decide

/-- PROG3, steps 6 to 10: halted, a write of `OPB` and a command have no effect, a read of `OPB` answers, and a read of
an unwritten result leaves `STATUS`. -/
theorem test_halted :
    next? (writeAt halted 0x08 0x00000400) = some halted ∧ next? (command halted 0x00000013) = some halted ∧
    (next? (readAt halted 0x08)).map State.answers = some [0x00000000] ∧
    status? (readAt halted 0x0C) = some 0x00000201 := by decide

/-- PROG3, the reset and step 11: `STATUS` is clear and `OPA` unwritten. -/
theorem test_reset_recovers :
    (next? (step (halted.present .reset))).map (fun t => (t.status, t.wOpa, t.wOpb)) =
      some (0x00000000, false, false) := by decide

/-- The word presented to `step` runs as a command: right after reset FXDIV10 records OperandUnwritten (vector F4's
rule, R85), and with its operands written it divides (FX10-15). -/
theorem test_withFetchWord :
    status? (step (State.reset.withFetchWord 32 0x13)) = some 0x00000601 ∧
    res0? (step ((operands .wrap 0x00219800 0x00019000).withFetchWord 32 0x13)) = some 0x00005600 := by decide

/-! ### The host's side (95_test_vectors.md section 2.4, rules R88 and R89) -/

/-- DEC-2, DEC-3, DEC-4: the last five coefficients of block 2. -/
theorem test_decode_block2 :
    (decodeDigH4 #v[0x6A, 0x01, 0x00, 0x13, 0x29, 0x03, 0x1E, 0, 0, 0, 0, 0, 0, 0, 0, 0] = 313 ∧
      decodeDigH5 #v[0x6A, 0x01, 0x00, 0x13, 0x29, 0x03, 0x1E, 0, 0, 0, 0, 0, 0, 0, 0, 0] = 50) ∧
    (decodeDigH4 #v[0x00, 0x80, 0xFF, 0xF0, 0x0F, 0xFF, 0x80, 0, 0, 0, 0, 0, 0, 0, 0, 0] = -241 ∧
      decodeDigH5 #v[0x00, 0x80, 0xFF, 0xF0, 0x0F, 0xFF, 0x80, 0, 0, 0, 0, 0, 0, 0, 0, 0] = -16) ∧
    (decodeDigH4 #v[0xFF, 0xFF, 0x00, 0x7F, 0xFF, 0x7F, 0x7F, 0, 0, 0, 0, 0, 0, 0, 0, 0] = 2047 ∧
      decodeDigH5 #v[0xFF, 0xFF, 0x00, 0x7F, 0xFF, 0x7F, 0x7F, 0, 0, 0, 0, 0, 0, 0, 0, 0] = 2047) := by decide

/-- CAL-A encoded (95_test_vectors.md section 0) decodes to CAL-A. -/
theorem test_decode_calA :
    decodeCalibration
      #v[0x5D, 0x70, 0x4A, 0x6A, 0x32, 0x00, 0x7D, 0x8E, 0x43, 0xD6, 0xD0, 0x0B, 0x27, 0x0B, 0x8C, 0x00, 0xF9, 0xFF,
         0x8C, 0x3C, 0xF8, 0xC6, 0x70, 0x17, 0x00, 0x4B]
      #v[0x6A, 0x01, 0x00, 0x13, 0x29, 0x03, 0x1E, 0, 0, 0, 0, 0, 0, 0, 0, 0] = calA := by decide +kernel

/-- DEC-5, DEC-6, DEC-7. -/
theorem test_decode_raw :
    (decodeAdcP #v[0x4E, 0xD2, 0xA0, 0x80, 0x8B, 0x20, 0x5B, 0xFD] = 322858 ∧
      decodeAdcT #v[0x4E, 0xD2, 0xA0, 0x80, 0x8B, 0x20, 0x5B, 0xFD] = 526514 ∧
      decodeAdcH #v[0x4E, 0xD2, 0xA0, 0x80, 0x8B, 0x20, 0x5B, 0xFD] = 23549) ∧
    decodeAdcT #v[0xFF, 0xFF, 0xFF, 0xFF, 0xFF, 0xFF, 0xFF, 0xFF] = 1048575 ∧
    decodeAdcP #v[0x4E, 0xD2, 0xAF, 0x80, 0x8B, 0x2F, 0x00, 0x00] = 322858 := by decide

/-- R160, R165: on a sensor that gives each address as its byte, the ends of each block are the ends of its range. -/
theorem test_block_addresses :
    ((readCalBlock1 (BitVec.ofNat 8))[0] = 0x88 ∧ (readCalBlock1 (BitVec.ofNat 8))[25] = 0xA1) ∧
    ((readCalBlock2 (BitVec.ofNat 8))[0] = 0xE1 ∧ (readCalBlock2 (BitVec.ofNat 8))[15] = 0xF0) ∧
    ((readRawBlock (BitVec.ofNat 8))[0] = 0xF7 ∧ (readRawBlock (BitVec.ofNat 8))[3] = 0xFA ∧
      (readRawBlock (BitVec.ofNat 8))[6] = 0xFD ∧ (readRawBlock (BitVec.ofNat 8))[7] = 0xFE) := by decide

/-- R262, E8: with another identity byte the host reads the identity register and nothing further, and loads nothing;
with the expected one it reads the 42 calibration bytes after it. -/
theorem test_bringUp_addresses :
    bringUpAddresses (fun _ => 0x61) = [0xD0] ∧ bringUpFrom (fun _ => 0x61) = [] ∧
    (bringUpAddresses (fun _ => 0x60)).length = 43 ∧ (bringUpAddresses (fun _ => 0x60)).getLast? = some 0xF0 := by
  decide

/-- R89: the expansion of `tdeg` and its bus accesses (R88; PROG1 steps 67 to 69 and 72). -/
theorem test_tdeg_expansion :
    (HostPseudo.tdeg (.lit 0x866) 0).expand =
      [.wrOpa (.lit 0x866), .wrOpb (.lit 0), .cmd .fxnew10, .rd .res0 0, .wrOpa (.named 0), .wrOpb (.lit 0x00019000),
       .cmd .fxdiv10] ∧
    (HostStmt.wrOpa (.lit 0x866)).toAccess 0x1000 [] = some (.write 0x1004 4 0x866) ∧
    (HostStmt.cmd .fxnew10).toAccess 0x1000 [] = some (.write 0x1000 4 0x00000010) ∧
    (HostStmt.rd .res0 0).toAccess 0x1000 [] = some (.read 0x100C 4) := by decide

/-- R164: with another identity byte no coefficient is loaded. -/
theorem test_identity : identityOk 0x60 = true ∧ identityOk 0x61 = false := by decide

/-- R262: eighteen `wrcal`, in index order: the first and the last statement (PROG1 steps 1 and 54). -/
theorem test_loadCoefficients :
    (loadCoefficients calA).length = 54 ∧ (loadCoefficients calA).head? = some (.wrOpa (.lit 0)) ∧
    (loadCoefficients calA)[52]? = some (.wrOpb (.lit 0x0000001E)) ∧
    (loadCoefficients calA).getLast? = some (.cmd .wrcal) := by decide

/-! ### Witnesses: states and operands that meet the hypotheses of the statements -/

/-- ResetLeavesNothingWritten: both values of `OVF`, and the first and last entries. -/
theorem witness_reset :
    (Config.defaultParams.ovf = .wrap ∧ State.reset = State.powerOn Config.defaultParams) ∧
    ({ ovf := .fault, engineBase := 0x1000 } : Params).ovf = .fault ∧
    exec .rdcal (withOperands State.reset 0 0) = .next (faulted (withOperands State.reset 0 0) 0x04) ∧
    exec .rdcal (withOperands State.reset 17 0) = .next (faulted (withOperands State.reset 17 0) 0x04) :=
  ⟨⟨rfl, rfl⟩, rfl, rfl, rfl⟩

/-- EngineResetClearsEverything, HaltedEngineChangesOnlyByReset: a halted engine whose next event is the reset, one whose
next event is a write, and both next states. -/
theorem witness_reset_event :
    halted.fault = true ∧ (halted.present .reset).inputs = .reset :: [] ∧
    (halted.present (.access (.write 0x1008 4 5))).inputs = .access (.write 0x1008 4 5) :: [] ∧
    HostEvent.access (.write 0x1008 4 5) ≠ .reset ∧
    (next? (step (halted.present .reset))).isSome = true ∧
    next? (step (halted.present (.access (.write 0x1008 4 5)))) = some halted := by decide

/-- StepKeepsTheInvariant: a loaded engine that runs, one that faults, and a halted one meet the invariant. -/
theorem witness_inv :
    (loaded .fault 526514 0).Inv ∧ (next? (step ((loaded .fault 526514 0).withFetchWord 32 1))).isSome = true ∧
    ((loaded .fault 526514 0).withFetchWord 32 1).Inv ∧
    (loaded .fault 0x7FFFFFFF 0).Inv ∧ status? (exec .tcomp (loaded .fault 0x7FFFFFFF 0)) = some 0x00010301 ∧
    halted.Inv := by decide

/-- StepRunsTheDecodedCommand: a word that decodes, one that does not, and a halted engine. -/
theorem witness_step_runs :
    ((loaded .wrap 1 1).presentCommand 0x13).inputs =
      .access (.write ((loaded .wrap 1 1).params.engineBase + 0x00) 4 0x13) :: [] ∧
    decode 0x13 = .ok .fxdiv10 ∧ decode 0x14 = .error .unassignedOp ∧ (loaded .wrap 1 1).fault = false ∧
    halted.fault = true := by decide

/-- IllegalCommandWordsOnlyRaiseIllegalOp: the ends of every range of R86, on a running engine. -/
theorem witness_illegal :
    (operands .wrap 1 0).fault = false ∧
    ((0x00000100 : Word).toNat / 256 ≠ 0 ∧ (0xFFFFFF01 : Word).toNat / 256 ≠ 0 ∧ (0x00 : Word).toNat % 256 = 0x00 ∧
      0x04 ≤ (0x04 : Word).toNat % 256 ∧ (0x0F : Word).toNat % 256 ≤ 0x0F ∧ 0x14 ≤ (0x14 : Word).toNat % 256 ∧
      (0x17 : Word).toNat % 256 ≤ 0x17 ∧ 0x1C ≤ (0x1C : Word).toNat % 256 ∧ (0x1F : Word).toNat % 256 ≤ 0x1F ∧
      0x22 ≤ (0x22 : Word).toNat % 256 ∧ 0x22 ≤ (0xFF : Word).toNat % 256) ∧
    status? (command (operands .wrap 1 0) 0xFFFFFF01) = some 0x00000101 ∧
    status? (command (operands .wrap 1 0) 0x0F) = some 0x00000101 ∧
    status? (command (operands .wrap 1 0) 0xFF) = some 0x00000101 := by decide

/-- ByteLanesCarryTheWord: the last lane and bit. -/
theorem witness_lanes : (3 < 4 ∧ 7 < 8) ∧ (lane 0x80000000 3).getLsbD 7 = true := by decide

/-- The fixed-point statements: both operands written, `OPA` lacking, `OPB` lacking, a zero divisor, one that is not. -/
theorem witness_fixed_point :
    ((operands .fault 0x80000000 0xFFFFFC00).fault = false ∧ (operands .fault 0x80000000 0xFFFFFC00).wOpa = true ∧
      (operands .fault 0x80000000 0xFFFFFC00).wOpb = true ∧ (operands .fault 0x80000000 0xFFFFFC00).opb ≠ 0) ∧
    (operands .wrap 7 0).opb = 0 ∧
    ({ operands .wrap 7 0 with wOpa := false } : State).fault = false ∧
    status? (exec .fxnew10 { operands .wrap 7 0 with wOpa := false }) = some 0x00000601 ∧
    status? (exec .fxnew8 { operands .wrap 7 0 with wOpb := false }) = some 0x00000601 ∧
    status? (exec .fxint10 { operands .wrap 7 0 with wOpa := false }) = some 0x00000601 ∧
    res0? (exec .fxint8 { operands .wrap 0x700 0 with wOpb := false }) = some 7 := by decide

/-- DivisionIsAccurateToOneUnit: the greatest FX8 quotient that fits, and the ends of the FX10 quotients that fit. -/
theorem witness_division :
    ((operands .wrap 0xFFFFFFFF 0x100).Ready .fxdiv8 ∧ (operands .wrap 0xFFFFFFFF 0x100).opb ≠ 0 ∧
      (operands .wrap 0xFFFFFFFF 0x100).opa.toNat * 256 / (operands .wrap 0xFFFFFFFF 0x100).opb.toNat = 2 ^ 32 - 1) ∧
    ((operands .wrap 0x7FFFFFFF 0x400).Ready .fxdiv10 ∧
      truncDiv (operands .wrap 0x7FFFFFFF 0x400).opa.toInt 1 = 2147483647 ∧
      Fits32 (truncDiv ((operands .wrap 0x7FFFFFFF 0x400).opa.toInt * 1024) (operands .wrap 0x7FFFFFFF 0x400).opb.toInt)) ∧
    Fits32 (truncDiv ((operands .wrap 0x80000000 0x400).opa.toInt * 1024) (operands .wrap 0x80000000 0x400).opb.toInt) ∧
    Fits32 (truncDiv ((operands .wrap 0xFFFFFC00 0xC00).opa.toInt * 1024) (operands .wrap 0xFFFFFC00 0xC00).opb.toInt) := by
  decide

/-- ConstructionRoundTrips, Fx10ValueIsIntegerPlusFraction: a negative word with a fraction (section 2.2). -/
theorem witness_round_trip :
    (operands .wrap 0xFFFFCEA4 0).Ready .fxint10 ∧
    res0? (exec .fxint10 (operands .wrap 0xFFFFCEA4 0)) = some 0xFFFFFFF3 ∧
    res0? (exec .fxfrac10 (operands .wrap 0xFFFFCEA4 0)) = some 0x000002A4 ∧
    res0? (exec .fxnew10 (operands .wrap 0xFFFFFFF3 0x000002A4)) = some 0xFFFFCEA4 := by decide

/-- CentidegreesRescaleToDegrees: the ends of the range in which the construction loses nothing, and a word beyond. -/
theorem witness_centidegrees :
    State.reset.fault = false ∧ (-2097152 ≤ (0xFFE00000 : Word).toInt ∧ (0xFFE00000 : Word).toInt < 2097152) ∧
    (-2097152 ≤ (0x001FFFFF : Word).toInt ∧ (0x001FFFFF : Word).toInt < 2097152) ∧
    ¬ ((0x00200000 : Word).toInt < 2097152) := by decide

/-- The coefficient file's statements: the last index, the first beyond it, an entry written and one not. -/
theorem witness_coefficients :
    ((loaded .wrap 17 0).fault = false ∧ (loaded .wrap 17 0).wOpa = true ∧ (loaded .wrap 17 0).wOpb = true ∧
      (loaded .wrap 17 0).opa.toNat = (17 : Fin 18).val ∧ (loaded .wrap 17 0).calw[(17 : Fin 18)] = true) ∧
    17 < (loaded .wrap 18 0).opa.toNat ∧ (lacking 17 .wrap 17 0).calw[(17 : Fin 18)] = false ∧
    ((3 : Fin 18) ≠ 17 ∧ (lacking 17 .wrap 17 0).calw[(3 : Fin 18)] = true) ∧ (17 : Fin 18) ≠ 3 := by decide

/-- TcompComputesTheTemperature: an entry lacking, both values of `OVF`, a computation whose steps all fit and one with a
step that does not (T3, T6). -/
theorem witness_tcomp :
    (((2 : Fin 18).val < 3 ∧ (lacking 2 .wrap 0 0).calw[(2 : Fin 18)] = false) ∧
      (∀ k : Fin 18, k.val < 3 → (loaded .fault 1048575 0).calw[k] = true)) ∧
    ((loaded .wrap 0 0).params.ovf = .wrap ∧ (loaded .fault 0 0).params.ovf = .fault) ∧
    ((loaded .fault 1048575 0).CalTyped ∧ ∀ x ∈ (tempExact calA 1048575).1, Fits32 x) ∧
    ((loadedWith (calA.set 1 32767) .fault 1048575 0).CalTyped ∧
      ∃ x ∈ (tempExact (calA.set 1 32767) 1048575).1, ¬ Fits32 x) := by decide

/-- PcompComputesThePressure: an entry lacking at each end, and each of the four cases of `OVF = fault` (P8, P12, P10,
P1). -/
theorem witness_pcomp :
    ((lacking 3 .wrap 0 0).calw[(3 : Fin 18)] = false ∧ (lacking 11 .wrap 0 0).calw[(11 : Fin 18)] = false ∧
      (∀ k : Fin 18, 3 ≤ k.val → k.val < 12 → (loaded .fault 0 0).calw[k] = true)) ∧
    (∃ x ∈ (presNormExact calA (-2147483648)).1, ¬ Fits64 x) ∧
    ((loadedWith (calA.set 3 0) .fault 322858 110074).CalTyped ∧
      (∀ x ∈ (presNormExact (calA.set 3 0) 110074).1, Fits64 x) ∧ (presNormExact (calA.set 3 0) 110074).2.1 = 0) ∧
    ((loaded .fault 322858 110074).CalTyped ∧ (∀ x ∈ (presNormExact calA 110074).1, Fits64 x) ∧
      (presNormExact calA 110074).2.1 ≠ 0) ∧
    (∃ x ∈ (presScaleExact calA (presNormExact calA 110074).2.1 (presNormExact calA 110074).2.2 (-2147483648)).1,
      ¬ Fits64 x) ∧
    (∀ x ∈ (presScaleExact calA (presNormExact calA 110074).2.1 (presNormExact calA 110074).2.2 322858).1,
      Fits64 x) := by decide

/-- HcompComputesTheHumidity: an entry lacking at each end, a computation whose steps all fit (H10) and one with a step
that does not (H7). -/
theorem witness_hcomp :
    ((lacking 12 .wrap 0 0).calw[(12 : Fin 18)] = false ∧ (lacking 17 .wrap 0 0).calw[(17 : Fin 18)] = false ∧
      (∀ k : Fin 18, 12 ≤ k.val → (loaded .fault 0 0).calw[k] = true)) ∧
    (∀ x ∈ (humAccExact calA 110074 2147483647).1, Fits32 x) ∧
    (∃ x ∈ (humAccExact calA (-2147483648) 0).1, ¬ Fits32 x) := by decide

/-- CompensationChecksItsCoefficients: the first and the last entry each operation reads. -/
theorem witness_readiness :
    ((lacking 2 .wrap 0 0).Ready .tcomp ∧ (lacking 2 .wrap 0 0).calw[(2 : Fin 18)] = false) ∧
    ((lacking 3 .wrap 0 0).Ready .pcomp ∧ (lacking 11 .wrap 0 0).Ready .pcomp) ∧
    ((lacking 12 .wrap 0 0).Ready .hcomp ∧ (lacking 17 .wrap 0 0).Ready .hcomp) := by decide

/-- The entries of R41 at their ends, and the first one beyond. -/
theorem witness_entries :
    ReadsEntry .tcomp 0 2 ∧ ReadsEntry .pcomp 0 3 ∧ ReadsEntry .pcomp 0 11 ∧ ¬ ReadsEntry .pcomp 0 12 ∧
    ReadsEntry .hcomp 0 12 ∧ ReadsEntry .hcomp 0 17 ∧ ReadsEntry .rdcal 17 17 := by
  simp [ReadsEntry]

/-- PressureShortCircuitsOnZero: `dig_p1 = 0`; a zero normalisation term with `dig_p1` not 0; and a PCOMP that
faults. -/
theorem witness_short_circuit :
    ((loadedWith (calA.set 3 0) .wrap 322858 110074).Ready .pcomp ∧
      (loadedWith (calA.set 3 0) .wrap 322858 110074).CalReady pcompEntries ∧
      (loadedWith (calA.set 3 0) .wrap 322858 110074).cal[3] = 0) ∧
    ((presNormWrap (((calA.set 3 1).set 4 (-16384)).set 5 0) 2225152).1 = 0 ∧
      (((calA.set 3 1).set 4 (-16384)).set 5 0)[3] = 1) ∧
    ((lacking 3 .wrap 0 0).fault = false ∧ status? (exec .pcomp (lacking 3 .wrap 0 0)) = some 0x00000401) := by decide

/-- HumidityLiesInItsRange: a ready HCOMP, and one that answers each end of the range (H3, H4). -/
theorem witness_humidity :
    ((loaded .wrap 0xFFFFFFFF 0x80000000).Ready .hcomp ∧ (loaded .wrap 0xFFFFFFFF 0x80000000).CalReady hcompEntries) ∧
    (next? (exec .hcomp (loaded .fault 0 110074))).map (fun t => (t.fault, t.res0)) = some (false, 0) ∧
    (next? (exec .hcomp (loaded .fault 65535 110074))).map (fun t => (t.fault, t.res0)) = some (false, 102400) := by
  decide

/-- OverflowNeedsTheFaultParameter, FaultModeRefinesWrapMode: a run that overflows and one that does not (T6, T1). -/
theorem witness_overflow :
    ((loadedWith (calA.set 1 32767) .fault 1048575 0).fault = false ∧
      (next? (exec .tcomp (loadedWith (calA.set 1 32767) .fault 1048575 0))).map (fun t => (t.fault, t.fcode)) =
        some (true, 0x03)) ∧
    ((loaded .fault 526514 0).params.ovf = .fault ∧
      (next? (exec .tcomp (loaded .fault 526514 0))).map State.fault = some false) := by decide

/-- CompensationIsPure: two engines that differ in results and in entries TCOMP does not read. -/
theorem witness_pure :
    (loaded .wrap 526514 0).Ready .tcomp ∧
    ({ loadedWith (calA.set 17 1) .wrap 526514 9 with res0 := 7, wRes0 := true } : State).Ready .tcomp ∧
    (loaded .wrap 526514 0).opa = (loadedWith (calA.set 17 1) .wrap 526514 9).opa ∧
    (∀ k : Fin 18, ReadsEntry .tcomp 526514 k → calA[k] = (calA.set 17 1)[k]) ∧
    loaded .wrap 526514 0 ≠ loadedWith (calA.set 17 1) .wrap 526514 9 := by decide

/-- FaultsArePrecise: a step that records the first code and one that records the last. -/
theorem witness_precise :
    (operands .wrap 1 0).fault = false ∧ status? (writeAt (operands .wrap 1 0) 0x00 0) = some 0x00000101 ∧
    status? (writeAt (operands .wrap 1 0) 0x1C 0) = some 0x00000801 := by decide

/-- FaultsFollowThePriority, EachOperationRaisesOnlyItsFaults: each rank reported, and the access rank with it. -/
theorem witness_priority :
    (∀ i, (0x0000001C : Word) ≠ encode i) ∧
    status? (command (operands .wrap 18 0) 0x1C) = some 0x00000101 ∧
    status? (command { operands .wrap 18 0 with wOpa := false } (encode .rdcal)) = some 0x00000601 ∧
    status? (command (operands .wrap 18 0) (encode .rdcal)) = some 0x00000501 ∧
    status? (command (operands .wrap 17 0) (encode .rdcal)) = some 0x00000401 ∧
    status? (command (operands .wrap 17 0) (encode .fxdiv8)) = some 0x00000201 ∧
    status? (command (loaded .fault 0x7FFFFFFF 0) (encode .tcomp)) = some 0x00010301 ∧
    (31 < 32 ∧ ¬ (4 = 4 ∧ 4 ∣ 31)) ∧ (0 < 32 ∧ ¬ (2 = 4 ∧ 4 ∣ 0)) := by
  refine ⟨?_, by decide⟩
  intro i
  cases i <;> decide

/-- OperationsWriteOnlyTheirRegisters: TCOMP, WRCAL and another that end well, one that faults, and a halted engine. -/
theorem witness_frame :
    (next? (exec .tcomp (loaded .wrap 526514 0))).map State.fault = some false ∧
    (next? (exec .wrcal (loaded .wrap 3 0))).map State.fault = some false ∧
    ((4 : Fin 18).val ≠ (loaded .wrap 3 0).opa.toNat) ∧
    (next? (exec .fxint8 (loaded .wrap 3 0))).map State.fault = some false ∧
    (next? (exec .fxdiv8 (loaded .wrap 3 0))).map State.fault = some true ∧
    next? (exec .fxdiv8 halted) = some halted := by decide

/-- WrittenBitsOnlyGrowUntilReset: a step that is no reset, in a state with every bit set, and a halted one. -/
theorem witness_written :
    (∀ e ∈ ((loaded .wrap 526514 0).presentCommand 1).inputs.head?, e ≠ .reset) ∧
    (next? (step ((loaded .wrap 526514 0).presentCommand 1))).isSome = true ∧
    ((loaded .wrap 526514 0).presentCommand 1).wOpa = true ∧
    ((loaded .wrap 526514 0).presentCommand 1).calw[(17 : Fin 18)] = true ∧ halted.fault = true := by decide

/-- The window statements: each register's written bit set and clear, halted and not, and ill-formed accesses at the
ends of the window. -/
theorem witness_window :
    ((operands .wrap 1 2).wOpa = true ∧ (operands .wrap 1 2).wOpb = true ∧ State.reset.wOpa = false ∧
      State.reset.wOpb = false ∧ State.reset.wRes0 = false ∧ State.reset.wRes1 = false) ∧
    (next? (exec .tcomp (loaded .wrap 526514 0))).map (fun t => (t.wRes0, t.wRes1)) = some (true, true) ∧
    (State.reset.fault = false ∧ halted.fault = true) ∧
    (31 < 32 ∧ ¬ (1 = 4 ∧ 4 ∣ 31)) ∧ (0 < 32 ∧ ¬ (8 = 4 ∧ 4 ∣ 0)) := by decide

/-- CalmaskShowsTheWrittenEntries: an engine with every entry written, and one with none. -/
theorem witness_calmask :
    (loaded .wrap 0 0).calmask = 0x0003FFFF ∧ (loaded .wrap 0 0).CalReady hcompEntries ∧
    (loaded .wrap 0 0).fault = false ∧ ¬ State.reset.CalReady tcompEntries := by decide

/-- IdleEngineDoesNothing, AccessOutsideTheWindowStops: no event to come; the addresses next to the window. -/
theorem witness_idle_outside :
    State.reset.inputs = [] ∧ (0x0FFF < (operands .wrap 0 0).params.engineBase) ∧
    ((operands .wrap 0 0).params.engineBase + 32 ≤ 0x1020) := by decide

/-- UnwrittenContentIsNeverAValue: two reset engines that differ in the content of an unwritten register and entry. -/
theorem witness_unwritten :
    State.reset.SameVisible { State.reset with res1 := 5, cal := calA } ∧
    State.reset ≠ { State.reset with res1 := 5, cal := calA } := by
  refine ⟨⟨rfl, rfl, rfl, rfl, rfl, rfl, rfl, rfl, rfl, rfl, rfl, ?_, ?_, ?_, ?_, ?_⟩, by decide⟩
  · intro h; cases h
  · intro h; cases h
  · intro h; cases h
  · intro h; cases h
  · decide

/-- DecodedCoefficientsFitTheirEntries: a running engine, and the extreme bytes of DEC-3. -/
theorem witness_decoded :
    State.reset.fault = false ∧
    decodeDigH4 #v[0x00, 0x80, 0xFF, 0x80, 0x00, 0x00, 0x80, 0, 0, 0, 0, 0, 0, 0, 0, 0] = -2048 ∧
    calTypes[15].Holds (-2048) := by decide

end Sys2Proof.Tests
end

/-!
SUPPORT. The two fields of an FX10 word against its signed value (R19, R20).
-/

namespace Sys2Proof.Machine

/-- The integer field, read signed, is the floor of the word's signed reading over 1024. -/
theorem fx10Integer_toInt (w : Word) : (fx10Integer w).toInt = s32 w / 1024 := by
  have hw := w.isLt
  simp only [fx10Integer, s32, BitVec.toInt_eq_toNat_cond, BitVec.extractLsb'_toNat, Nat.shiftRight_eq_div_pow]
  omega

/-- The fraction field, read unsigned, is the word's signed reading modulo 1024. -/
theorem fx10Fraction_toNat (w : Word) : ((fx10Fraction w).toNat : Int) = s32 w % 1024 := by
  simp only [fx10Fraction, s32, BitVec.toInt_eq_toNat_cond, BitVec.extractLsb'_toNat, Nat.shiftRight_zero]
  omega

/-- The identity R20 rests on: the signed reading is the signed integer field times 1024 plus the fraction field. -/
theorem s32_eq_fx10_fields (w : Word) : s32 w = (fx10Integer w).toInt * 1024 + (fx10Fraction w).toNat := by
  rw [fx10Integer_toInt, fx10Fraction_toNat, Int.ediv_mul_add_emod]

/-- The real value of an FX10 word by its two fields (R19, R20). -/
theorem fx10Value_eq_fields (w : Word) :
    fx10Value w = ((fx10Integer w).toInt : ℚ) + ((fx10Fraction w).toNat : ℚ) / 1024 := by
  unfold fx10Value
  rw [s32_eq_fx10_fields]
  push_cast
  ring

/-- Operations that read the same operand registers are ready in the same states (R85). -/
theorem State.Ready.of_readsOpb_eq {s : State} {i j : Instr} (h : s.Ready i) (hij : readsOpb j = readsOpb i) :
    s.Ready j := by
  obtain ⟨hf, ha, hb⟩ := h
  exact ⟨hf, fun _ => ha (readsOpa_eq_true i), fun hj => hb (hij ▸ hj)⟩

end Sys2Proof.Machine

namespace Sys2Proof.Proofs

open Sys2Proof.Machine

/-- Settles O20: both operations are ready together, and their results are the two fields, each extended by its own
sign. -/
theorem fx10ValueIsIntegerPlusFraction : Obligations.Fx10ValueIsIntegerPlusFraction := by
  unfold Obligations.Fx10ValueIsIntegerPlusFraction
  intro s hint
  have hfrac : s.Ready .fxfrac10 := hint.of_readsOpb_eq rfl
  refine ⟨_, _, exec_of_body_ok hint rfl, exec_of_body_ok hfrac rfl, ?_⟩
  have hi : ((fx10Integer s.opa).signExtend 32).toInt = (fx10Integer s.opa).toInt :=
    BitVec.toInt_signExtend_of_le (by decide)
  have hf : ((fx10Fraction s.opa).setWidth 32).toNat = (fx10Fraction s.opa).toNat :=
    BitVec.toNat_setWidth_of_le (by decide)
  rw [State.setRes0_res0, State.setRes0_res0, hi, hf, fx10Value_eq_fields]

end Sys2Proof.Proofs

/-!
SUPPORT. What an operation's own rule leaves of the fault record, and which operation records Overflow (R205, R230).
-/

namespace Sys2Proof.Machine

/-- An operation's own rule that ends well leaves the fault record as it was. -/
theorem bodyOf_ok_fault {i : Instr} {s t : State} (h : bodyOf i s = .ok t) : t.fault = s.fault := by
  rcases bodyOf_ok h with ⟨_, v, w, rfl⟩ | ⟨_, _, v, rfl⟩ | ⟨_, hk, rfl⟩ <;> rfl

/-- An own rule that raises Overflow runs under `OVF = fault` and is a compensation operation's (R205, R230). -/
theorem bodyOf_error_overflow {i : Instr} {s : State} (h : bodyOf i s = .error .overflow) :
    s.params.ovf = .fault ∧ (i = .tcomp ∨ i = .pcomp ∨ i = .hcomp) := by
  rcases bodyOf_error h with ⟨hc, _⟩ | ⟨hc, _⟩ | ⟨hc, _⟩ | ⟨_, ho, hi, _⟩
  · cases hc
  · cases hc
  · cases hc
  · exact ⟨ho, hi⟩

/-- A fault an operation records in a running engine is OperandUnwritten, or what its own rule raises (R85, R234). -/
theorem exec_records_cases {i : Instr} {s t : State} (hs : s.fault = false) (h : exec i s = .next t)
    (ht : t.fault = true) :
    t = s.raise .operandUnwritten ∨ ∃ c, bodyOf i s = .error c ∧ t = s.raise c := by
  rcases exec_next_cases h with ⟨hf, _⟩ | ⟨_, _, hu⟩ | ⟨_, c, hb, hr⟩ | ⟨_, hb⟩
  · simp [hs] at hf
  · exact .inl hu
  · exact .inr ⟨c, hb, hr⟩
  · simp [bodyOf_ok_fault hb, hs] at ht

/-- The code the first fault leaves in the record (R234). -/
theorem State.raise_fcode_running {s : State} (h : s.fault = false) (c : Cause) : (s.raise c).fcode = c.code := by
  simp [h]

end Sys2Proof.Machine

namespace Sys2Proof.Proofs

open Sys2Proof.Machine

/-- Settles O31: code 0x03 is Overflow's alone, and only the own rule of a compensation operation raises it. -/
theorem overflowNeedsTheFaultParameter : Obligations.OverflowNeedsTheFaultParameter := by
  unfold Obligations.OverflowNeedsTheFaultParameter
  intro i s t hs h ht hcode
  rcases exec_records_cases hs h ht with rfl | ⟨c, hb, rfl⟩ <;> rw [State.raise_fcode_running hs] at hcode
  · exact absurd hcode (by decide)
  · have hc : c = .overflow := Cause.code_injective hcode
    rw [hc] at hb
    exact bodyOf_error_overflow hb

end Sys2Proof.Proofs

/-!
SUPPORT. The refinement of `OVF = wrap` by `OVF = fault` (R12, R17): a run in which every checked step fits has the
same values under both.
-/

namespace Sys2Proof.Machine

/-! ### The compensation functions

Each lemma follows its function step by step: a step that fits passes the same value on to the next. -/

theorem add_endsLike {n : Nat} (hn : 0 < n) {a b : Int} : EndsLike (add .fault n a b) (add .wrap n a b) :=
  chk_endsLike hn (a + b)

theorem sub_endsLike {n : Nat} (hn : 0 < n) {a b : Int} : EndsLike (sub .fault n a b) (sub .wrap n a b) :=
  chk_endsLike hn (a - b)

theorem mul_endsLike {n : Nat} (hn : 0 < n) {a b : Int} : EndsLike (mul .fault n a b) (mul .wrap n a b) :=
  chk_endsLike hn (a * b)

theorem tCompFine_endsLike (cal : Coeffs) (adcT : Int) :
    EndsLike (tCompFine .fault cal adcT) (tCompFine .wrap cal adcT) := by
  have hn : 0 < 32 := by decide
  exact .bind (sub_endsLike hn) fun _ => .bind (mul_endsLike hn) fun _ =>
    .bind (sub_endsLike hn) fun _ => .bind (mul_endsLike hn) fun _ =>
    .bind (mul_endsLike hn) fun _ => add_endsLike hn

theorem tCompCenti_endsLike (tFine : Int) : EndsLike (tCompCenti .fault tFine) (tCompCenti .wrap tFine) := by
  have hn : 0 < 32 := by decide
  exact .bind (mul_endsLike hn) fun _ => .bind (add_endsLike hn) fun _ => .refl _

theorem pCompNorm_endsLike (cal : Coeffs) (tFine : Int) :
    EndsLike (pCompNorm .fault cal tFine) (pCompNorm .wrap cal tFine) := by
  have hn : 0 < 64 := by decide
  exact .bind (sub_endsLike hn) fun _ => .bind (mul_endsLike hn) fun _ =>
    .bind (mul_endsLike hn) fun _ => .bind (mul_endsLike hn) fun _ =>
    .bind (add_endsLike hn) fun _ => .bind (add_endsLike hn) fun _ =>
    .bind (mul_endsLike hn) fun _ => .bind (mul_endsLike hn) fun _ =>
    .bind (mul_endsLike hn) fun _ => .bind (add_endsLike hn) fun _ =>
    .bind (add_endsLike hn) fun _ => .bind (mul_endsLike hn) fun _ => .refl _

theorem pCompScale_endsLike (cal : Coeffs) (v1 v2 adcP : Int) :
    EndsLike (pCompScale .fault cal v1 v2 adcP) (pCompScale .wrap cal v1 v2 adcP) := by
  have hn : 0 < 64 := by decide
  exact .bind (sub_endsLike hn) fun _ => .bind (sub_endsLike hn) fun _ =>
    .bind (mul_endsLike hn) fun _ => .bind (sdiv_endsLike hn _ _) fun _ =>
    .bind (mul_endsLike hn) fun _ => .bind (mul_endsLike hn) fun _ =>
    .bind (mul_endsLike hn) fun _ => .bind (add_endsLike hn) fun _ =>
    .bind (add_endsLike hn) fun _ => add_endsLike hn

/-- The zero short-circuit (R191) is taken under both parameters or under neither. -/
theorem pComp_endsLike (cal : Coeffs) (tFine adcP : Int) :
    EndsLike (pComp .fault cal tFine adcP) (pComp .wrap cal tFine adcP) := by
  refine .bind (pCompNorm_endsLike cal tFine) fun v => ?_
  by_cases h : v.1 = 0
  · rw [if_pos h, if_pos h]; exact .refl _
  · rw [if_neg h, if_neg h]; exact pCompScale_endsLike cal v.1 v.2 adcP

theorem hCompPre_endsLike (cal : Coeffs) (tFine adcH : Int) :
    EndsLike (hCompPre .fault cal tFine adcH) (hCompPre .wrap cal tFine adcH) := by
  have hn : 0 < 32 := by decide
  exact .bind (sub_endsLike hn) fun _ => .bind (sub_endsLike hn) fun _ =>
    .bind (mul_endsLike hn) fun _ => .bind (sub_endsLike hn) fun _ =>
    .bind (add_endsLike hn) fun _ => .bind (mul_endsLike hn) fun _ =>
    .bind (mul_endsLike hn) fun _ => .bind (add_endsLike hn) fun _ =>
    .bind (mul_endsLike hn) fun _ => .bind (add_endsLike hn) fun _ =>
    .bind (mul_endsLike hn) fun _ => .bind (add_endsLike hn) fun _ =>
    .bind (mul_endsLike hn) fun _ => .bind (mul_endsLike hn) fun _ =>
    .bind (mul_endsLike hn) fun _ => sub_endsLike hn

/-! ### The operations -/

/-- The same engine built with `OVF = wrap` (R12). -/
def State.underWrap (s : State) : State := { s with params := { s.params with ovf := .wrap } }

/-- Readiness to run does not depend on `OVF` (R85). -/
theorem State.Ready.underWrap {s : State} {i : Instr} (h : s.Ready i) : s.underWrap.Ready i := h

/-- An own rule that ends well under `OVF = fault` ends under `OVF = wrap` in the same state: the compensation rules
because their checked steps do, the others because they do not read `OVF` (R12). -/
theorem bodyOf_underWrap {i : Instr} {s t : State} (ho : s.params.ovf = .fault) (h : bodyOf i s = .ok t) :
    bodyOf i s.underWrap = .ok t.underWrap := by
  cases i with
  | tcomp =>
    simp only [bodyOf, tcompBody, bind_eq_ok, ho] at h ⊢
    obtain ⟨u, hu, tf, htf, tc, htc, h⟩ := h
    cases h
    exact ⟨u, hu, tf, tCompFine_endsLike _ _ _ htf, tc, tCompCenti_endsLike _ _ htc, rfl⟩
  | pcomp =>
    simp only [bodyOf, pcompBody, bind_eq_ok, ho] at h ⊢
    obtain ⟨u, hu, p, hp, h⟩ := h
    cases h
    exact ⟨u, hu, p, pComp_endsLike _ _ _ _ hp, rfl⟩
  | hcomp =>
    simp only [bodyOf, hcompBody, bind_eq_ok, ho] at h ⊢
    obtain ⟨u, hu, v, hv, h⟩ := h
    cases h
    exact ⟨u, hu, v, hCompPre_endsLike _ _ _ _ hv, rfl⟩
  | fxdiv10 =>
    simp only [bodyOf, fxdiv10Body, bind_eq_ok] at h ⊢
    obtain ⟨q, hq, h⟩ := h
    cases h
    exact ⟨q, hq, rfl⟩
  | fxdiv8 =>
    simp only [bodyOf, fxdiv8Body, bind_eq_ok] at h ⊢
    obtain ⟨q, hq, h⟩ := h
    cases h
    exact ⟨q, hq, rfl⟩
  | wrcal =>
    simp only [bodyOf, wrcalBody, bind_eq_ok] at h ⊢
    obtain ⟨k, hk, h⟩ := h
    cases h
    exact ⟨k, hk, rfl⟩
  | rdcal =>
    simp only [bodyOf, rdcalBody, bind_eq_ok] at h ⊢
    obtain ⟨k, hk, u, hu, h⟩ := h
    cases h
    exact ⟨k, hk, u, hu, rfl⟩
  | _ => cases h; rfl

/-- An operation that leaves no fault recorded ran its own rule to its end (R39, R85). -/
theorem exec_unfaulted {i : Instr} {s t : State} (h : exec i s = .next t) (ht : t.fault = false) :
    s.Ready i ∧ bodyOf i s = .ok t := by
  rcases exec_next_cases h with ⟨hf, rfl⟩ | ⟨_, _, rfl⟩ | ⟨_, c, _, rfl⟩ | hok
  · simp [hf] at ht
  · simp at ht
  · simp at ht
  · exact hok

end Sys2Proof.Machine

namespace Sys2Proof.Proofs

open Sys2Proof.Machine

/-- Settles O32: an operation that records no fault ran its own rule to its end, which the same rule under
`OVF = wrap` reaches too. -/
theorem faultModeRefinesWrapMode : Obligations.FaultModeRefinesWrapMode := by
  unfold Obligations.FaultModeRefinesWrapMode
  intro i s t ho h ht
  obtain ⟨hready, hbody⟩ := exec_unfaulted h ht
  exact exec_of_body_ok hready.underWrap (bodyOf_underWrap ho hbody)

end Sys2Proof.Proofs

/-!
SUPPORT. What an operation, a host access and a step can do to the state, each said once as a list of effects.
-/

namespace Sys2Proof.Machine

/-- Everything an operation can do: nothing while halted, one fault recorded, or the writes of its own rule (R39, R85,
R234). -/
inductive ExecEffect (i : Instr) (s : State) : State → Prop where
  | halted (hf : s.fault = true) : ExecEffect i s s
  | raised (hf : s.fault = false) (c : Cause) : ExecEffect i s (s.raise c)
  | twoResults (hf : s.fault = false) (hi : i = .tcomp) (v w : Word) : ExecEffect i s ((s.setRes0 v).setRes1 w)
  | oneResult (hf : s.fault = false) (ht : i ≠ .tcomp) (hw : i ≠ .wrcal) (v : Word) : ExecEffect i s (s.setRes0 v)
  | coefficient (hf : s.fault = false) (hi : i = .wrcal) (hk : s.opa.toNat < 18) :
      ExecEffect i s (s.setCal ⟨s.opa.toNat, hk⟩ (calTypes[s.opa.toNat].ofWord s.opb))

/-- The one inversion of an operation, over `exec_next_cases` and `bodyOf_ok`. -/
theorem exec_effect {i : Instr} {s t : State} (h : exec i s = .next t) : ExecEffect i s t := by
  rcases exec_next_cases h with ⟨hf, rfl⟩ | ⟨hf, _, rfl⟩ | ⟨⟨hf, _⟩, c, _, rfl⟩ | ⟨⟨hf, _⟩, hb⟩
  · exact .halted hf
  · exact .raised hf _
  · exact .raised hf c
  · rcases bodyOf_ok hb with ⟨hi, v, w, rfl⟩ | ⟨ht, hw, v, rfl⟩ | ⟨hi, hk, rfl⟩
    · exact .twoResults hf hi v w
    · exact .oneResult hf ht hw v
    · exact .coefficient hf hi hk

/-- Everything a host access can do: only a running engine stores an operand; a command does what its operation does
(R36, R39, R62, R64, R65). -/
inductive AccessEffect (s : State) : State → Prop where
  | ignored (hf : s.fault = true) : AccessEffect s s
  | raised (c : Cause) : AccessEffect s (s.raise c)
  | answered (v : Word) : AccessEffect s (s.answer v)
  | answeredFaulting (c : Cause) : AccessEffect s (s.raise c).answerFree
  | storedOpa (hf : s.fault = false) (v : Word) : AccessEffect s (s.setOpa v)
  | storedOpb (hf : s.fault = false) (v : Word) : AccessEffect s (s.setOpb v)
  | performed {i : Instr} {t : State} (h : ExecEffect i s t) : AccessEffect s t

/-- An operand store does nothing while halted (R39). -/
theorem hostStore_halted {s : State} (h : s.fault = true) (t : State) : hostStore s t = s := by
  simp [hostStore, h]

/-- A running engine takes an operand store (R64). -/
theorem hostStore_running {s : State} (h : s.fault = false) (t : State) : hostStore s t = t := by
  simp [hostStore, h]

theorem performCommand_effect {s t : State} {c : Word} (h : performCommand s c = .next t) : AccessEffect s t := by
  unfold performCommand at h
  split at h
  · exact .performed (exec_effect h)
  · cases h; exact .raised _

theorem writeRegister_effect {s t : State} {r : WinReg} {v : Word} (h : writeRegister s r v = .next t) :
    AccessEffect s t := by
  cases r with
  | cmd => exact performCommand_effect h
  | opa =>
    cases h
    cases hf : s.fault with
    | true => rw [hostStore_halted hf]; exact .ignored hf
    | false => rw [hostStore_running hf]; exact .storedOpa hf v
  | opb =>
    cases h
    cases hf : s.fault with
    | true => rw [hostStore_halted hf]; exact .ignored hf
    | false => rw [hostStore_running hf]; exact .storedOpb hf v
  | _ => cases h; exact .raised _

theorem readWritten_effect (s : State) (written : Bool) (v : Word) : AccessEffect s (readWritten s written v) := by
  cases written with
  | true => exact .answered v
  | false => exact .answeredFaulting _

theorem readRegister_effect (s : State) (r : WinReg) : AccessEffect s (readRegister s r) := by
  cases r with
  | cmd => exact .answeredFaulting _
  | status => exact .answered _
  | calmask => exact .answered _
  | reserved => exact .answeredFaulting _
  | _ => exact readWritten_effect s _ _

/-- The one inversion of a host access: no access has another effect. -/
theorem performAccess_effect {s t : State} {a : Access} (h : performAccess s a = .next t) : AccessEffect s t := by
  cases a with
  | read addr width =>
    simp only [performAccess] at h
    split at h
    · cases h
    · split at h <;> cases h
      · exact .answeredFaulting _
      · exact readRegister_effect s _
  | write addr width v =>
    simp only [performAccess] at h
    split at h
    · cases h
    · split at h
      · cases h; exact .raised _
      · exact writeRegister_effect h

/-- Everything an event that answers a next state can do (R36, R260). -/
theorem performEvent_next_cases {s t : State} {e : HostEvent} (h : performEvent s e = .next t) :
    (e = .reset ∧ t = s.engineReset) ∨ (e ≠ .reset ∧ AccessEffect s t) := by
  cases e with
  | access a => exact .inr ⟨by simp, performAccess_effect h⟩
  | reset => cases h; exact .inl ⟨rfl, rfl⟩
  | concurrent a b => cases h

/-- With no event to come a step does nothing (R36). -/
theorem step_idle {s : State} (h : s.inputs = []) : step s = .next s := by
  simp [step, State.takeInput, h]

/-- Everything a step can do: nothing with no event to come, engine reset, or one host access (R36, R66). -/
theorem step_next_cases {s t : State} (h : step s = .next t) :
    (s.inputs = [] ∧ t = s) ∨
    (∃ rest, s.inputs = .reset :: rest ∧ t = State.engineReset { s with inputs := rest }) ∨
    (∃ e rest, s.inputs = e :: rest ∧ e ≠ .reset ∧ AccessEffect { s with inputs := rest } t) := by
  cases hin : s.inputs with
  | nil =>
    rw [step_idle hin] at h
    cases h
    exact .inl ⟨rfl, rfl⟩
  | cons e rest =>
    rw [step_event hin] at h
    rcases performEvent_next_cases h with ⟨rfl, rfl⟩ | ⟨he, ha⟩
    · exact .inr (.inl ⟨rest, rfl, rfl⟩)
    · exact .inr (.inr ⟨e, rest, rfl, he, ha⟩)

/-! ### The invariant -/

/-- The invariant speaks of the fault record and the coefficient file alone. -/
theorem State.Inv.of_eq {s t : State} (h : s.Inv) (hf : t.fault = s.fault) (hc : t.fcode = s.fcode)
    (hcal : t.cal = s.cal) : t.Inv := by
  simpa only [State.Inv, State.StatusLegal, State.CalTyped, hf, hc, hcal] using h

theorem State.Inv.raise {s : State} (h : s.Inv) (c : Cause) : (s.raise c).Inv := by
  cases hf : s.fault with
  | true => rwa [State.raise_halted hf]
  | false =>
    obtain ⟨_, hcal⟩ := h
    rw [State.raise_running hf]
    exact ⟨⟨nofun, fun _ => c.code_range⟩, hcal⟩

/-- What WRCAL stores keeps the invariant, whatever the word (R150, R153). -/
theorem State.Inv.setCal {s : State} (h : s.Inv) (k : Fin 18) (w : Word) :
    (s.setCal k (calTypes[k].ofWord w)).Inv := by
  obtain ⟨hstatus, hcal⟩ := h
  refine ⟨hstatus, fun j => ?_⟩
  rw [setCal_cal_get]
  split
  · rename_i hkj
    subst hkj
    exact ofWord_holds _ (by rcases calTypes_width k with hw | hw <;> omega) w
  · exact hcal j

theorem ExecEffect.keeps_inv {i : Instr} {s t : State} (h : ExecEffect i s t) (hs : s.Inv) : t.Inv := by
  cases h with
  | halted => exact hs
  | raised _ c => exact hs.raise c
  | twoResults => exact hs.of_eq rfl rfl rfl
  | oneResult => exact hs.of_eq rfl rfl rfl
  | coefficient _ _ hk => exact hs.setCal ⟨s.opa.toNat, hk⟩ s.opb

theorem AccessEffect.keeps_inv {s t : State} (h : AccessEffect s t) (hs : s.Inv) : t.Inv := by
  cases h with
  | ignored => exact hs
  | raised c => exact hs.raise c
  | answered => exact hs.of_eq rfl rfl rfl
  | answeredFaulting c => exact (hs.raise c).of_eq rfl rfl rfl
  | storedOpa => exact hs.of_eq rfl rfl rfl
  | storedOpb => exact hs.of_eq rfl rfl rfl
  | performed h => exact h.keeps_inv hs

/-- At power-on every entry holds 0, which every type has (R43, log 5). -/
theorem powerOn_inv (p : Params) : (State.powerOn p).Inv := by
  refine ⟨⟨fun _ => rfl, nofun⟩, ?_⟩
  have h0 : ∀ k : Fin 18, calTypes[k].Holds 0 := by decide
  intro k
  simpa [State.powerOn] using h0 k

theorem engineReset_inv (s : State) : s.engineReset.Inv := (powerOn_inv s.params).of_eq rfl rfl rfl

end Sys2Proof.Machine

namespace Sys2Proof.Proofs

open Sys2Proof.Machine

/-- Settles O4: each effect a step can have keeps the invariant; only a recorded fault and a stored coefficient touch
what it speaks of. -/
theorem stepKeepsTheInvariant : Obligations.StepKeepsTheInvariant := by
  unfold Obligations.StepKeepsTheInvariant
  intro s t hs h
  rcases step_next_cases h with ⟨_, rfl⟩ | ⟨rest, _, rfl⟩ | ⟨e, rest, _, _, ha⟩
  · exact hs
  · exact engineReset_inv _
  · exact ha.keeps_inv (hs.of_eq rfl rfl rfl)

/-- Settles O3. -/
theorem resetMeetsTheInvariant : Obligations.ResetMeetsTheInvariant := by
  unfold Obligations.ResetMeetsTheInvariant
  exact ⟨rfl, powerOn_inv _, powerOn_inv⟩

/-- Settles O46. -/
theorem idleEngineDoesNothing : Obligations.IdleEngineDoesNothing := by
  unfold Obligations.IdleEngineDoesNothing
  exact fun _ => step_idle

end Sys2Proof.Proofs

/-!
SUPPORT. What an operation and a host access leave unchanged, and what they never undo (R35, R37, R39, R60).
-/

namespace Sys2Proof.Machine

/-- Every operation answers a next state, halted or not, faulting or not (R36, R39, R85). -/
theorem exec_completes (i : Instr) (s : State) : ∃ t, exec i s = .next t := by
  rw [exec_eq_command]
  rcases command_cases s i (bodyOf i) with ⟨_, h⟩ | ⟨_, _, h⟩ | ⟨_, c, _, h⟩ | ⟨_, t, _, h⟩ <;> exact ⟨_, h⟩

/-- A halted engine performs no operation (R39). -/
theorem exec_halted {s : State} (h : s.fault = true) (i : Instr) : exec i s = .next s := by
  rw [exec_eq_command, command_halted _ _ h]

/-- A halted engine takes no command (R39, R235). -/
theorem performCommand_halted {s : State} (h : s.fault = true) (c : Word) : performCommand s c = .next s := by
  unfold performCommand
  split
  · exact exec_halted h _
  · rw [State.raise_halted h]

theorem performCommand_of_ok {c : Word} {i : Instr} (h : decode c = .ok i) (s : State) :
    performCommand s c = exec i s := by
  simp [performCommand, h]

theorem performCommand_of_error {c : Word} {e : Illegal} (h : decode c = .error e) (s : State) :
    performCommand s c = .next (s.raise .illegalOp) := by
  simp [performCommand, h]

/-- A step on a word write at a register's address is the write of that register (R61, R64). -/
theorem step_write {s : State} {r : WinReg} {v : Word} {rest : List HostEvent}
    (h : s.inputs = .access (.write (s.params.engineBase + r.offset) 4 v) :: rest) :
    step s = writeRegister { s with inputs := rest } r v := by
  rw [step_event h]
  exact performAccess_write { s with inputs := rest } r v

theorem step_reset {s : State} {rest : List HostEvent} (h : s.inputs = .reset :: rest) :
    step s = .next (State.engineReset { s with inputs := rest }) := step_event h

/-- Writing one entry leaves every other as it was (R153). -/
theorem setCal_other (s : State) {k j : Fin 18} (h : j ≠ k) (v : Int) :
    (s.setCal k v).cal[j] = s.cal[j] ∧ (s.setCal k v).calw[j] = s.calw[j] := by
  rw [setCal_cal_get, setCal_calw_get, if_neg h.symm, if_neg h.symm]
  exact ⟨rfl, rfl⟩

/-! ### The halt -/

theorem ExecEffect.eq_of_halted {i : Instr} {s t : State} (h : ExecEffect i s t) (hs : s.fault = true) : t = s := by
  cases h with
  | halted => rfl
  | raised hf => simp [hs] at hf
  | twoResults hf => simp [hs] at hf
  | oneResult hf => simp [hs] at hf
  | coefficient hf => simp [hs] at hf

/-- All a host access does to a halted engine is to answer a read (R39, R235). -/
theorem AccessEffect.only_answers_of_halted {s t : State} (h : AccessEffect s t) (hs : s.fault = true) :
    ∃ a n, t = { s with answers := a, draws := n } := by
  cases h with
  | ignored => exact ⟨_, _, rfl⟩
  | raised c => exact ⟨_, _, State.raise_halted hs c⟩
  | answered v => exact ⟨_, _, rfl⟩
  | answeredFaulting c => exact ⟨_, _, by rw [State.raise_halted hs]; rfl⟩
  | storedOpa hf => simp [hs] at hf
  | storedOpb hf => simp [hs] at hf
  | performed h => exact ⟨_, _, h.eq_of_halted hs⟩

/-! ### The parameters, the written bits and the fault record -/

/-- Every written bit set in `s` is set in `t`, and a fault recorded in `s` is recorded in `t` (R35, R37). -/
def State.GrowsTo (s t : State) : Prop :=
  (s.wOpa = true → t.wOpa = true) ∧ (s.wOpb = true → t.wOpb = true) ∧
  (s.wRes0 = true → t.wRes0 = true) ∧ (s.wRes1 = true → t.wRes1 = true) ∧
  (∀ k : Fin 18, s.calw[k] = true → t.calw[k] = true) ∧
  (s.fault = true → t.fault = true ∧ t.fcode = s.fcode)

theorem State.GrowsTo.refl (s : State) : s.GrowsTo s :=
  ⟨id, id, id, id, fun _ => id, fun h => ⟨h, rfl⟩⟩

theorem State.growsTo_raise (s : State) (c : Cause) : s.GrowsTo (s.raise c) := by
  simp +contextual [State.GrowsTo]

theorem State.growsTo_setCal (s : State) (k : Fin 18) (v : Int) : s.GrowsTo (s.setCal k v) := by
  refine ⟨id, id, id, id, fun j hj => ?_, fun h => ⟨h, rfl⟩⟩
  rw [setCal_calw_get, hj, ite_self]

theorem ExecEffect.growsTo {i : Instr} {s t : State} (h : ExecEffect i s t) : s.GrowsTo t := by
  cases h with
  | halted => exact .refl s
  | raised _ c => exact s.growsTo_raise c
  | twoResults => exact ⟨id, id, fun _ => rfl, fun _ => rfl, fun _ => id, fun h => ⟨h, rfl⟩⟩
  | oneResult => exact ⟨id, id, fun _ => rfl, id, fun _ => id, fun h => ⟨h, rfl⟩⟩
  | coefficient => exact s.growsTo_setCal _ _

theorem AccessEffect.growsTo {s t : State} (h : AccessEffect s t) : s.GrowsTo t := by
  cases h with
  | ignored => exact .refl s
  | raised c => exact s.growsTo_raise c
  | answered v => exact State.GrowsTo.refl s
  | answeredFaulting c => exact s.growsTo_raise c
  | storedOpa => exact ⟨fun _ => rfl, id, id, id, fun _ => id, fun h => ⟨h, rfl⟩⟩
  | storedOpb => exact ⟨id, fun _ => rfl, id, id, fun _ => id, fun h => ⟨h, rfl⟩⟩
  | performed h => exact h.growsTo

theorem ExecEffect.params_eq {i : Instr} {s t : State} (h : ExecEffect i s t) : t.params = s.params := by
  cases h <;> simp

theorem AccessEffect.params_eq {s t : State} (h : AccessEffect s t) : t.params = s.params := by
  cases h with
  | performed h => exact h.params_eq
  | _ => simp

/-- Recording the first fault, in the statements' words (R234). -/
theorem raise_eq_faulted {s : State} (h : s.fault = false) (c : Cause) : s.raise c = Statement.faulted s c.code :=
  State.raise_running h c

/-! ### Engine reset -/

/-- At power-on no entry is written (R43). -/
theorem powerOn_calw (p : Params) (k : Fin 18) : (State.powerOn p).calw[k] = false := by
  simp [State.powerOn]

theorem powerOn_calmask (p : Params) : (State.powerOn p).calmask = 0x00000000 := by
  simp [State.calmask, State.powerOn, Vector.toList_replicate, bitsToNat]

/-- At power-on `STATUS` shows the parameter `OVF` alone (R35, R43). -/
theorem powerOn_status (p : Params) :
    (State.powerOn p).status = if p.ovf = .wrap then 0x00000000 else 0x00010000 := by
  cases h : p.ovf <;> simp [State.status, State.powerOn, ovfmBit, h]

end Sys2Proof.Machine

namespace Sys2Proof.Proofs

open Sys2Proof.Machine Sys2Proof.Statement

/-- Settles O34: a halted engine can only answer. -/
theorem haltedEngineChangesOnlyByReset : Obligations.HaltedEngineChangesOnlyByReset := by
  unfold Obligations.HaltedEngineChangesOnlyByReset
  intro s t e rest hs hin h
  rw [step_event hin] at h
  rcases performEvent_next_cases h with ⟨rfl, rfl⟩ | ⟨he, ha⟩
  · exact ⟨fun hne => absurd rfl hne, fun _ => ⟨rfl, rfl⟩⟩
  · obtain ⟨a, n, rfl⟩ := ha.only_answers_of_halted hs
    exact ⟨fun _ => ⟨⟨rfl, rfl, rfl, rfl, rfl, rfl, rfl, rfl, rfl, rfl, rfl, rfl, rfl⟩, rfl⟩, fun hr => absurd hr he⟩

/-- Settles O40: every effect but engine reset only adds written bits and faults. -/
theorem writtenBitsOnlyGrowUntilReset : Obligations.WrittenBitsOnlyGrowUntilReset := by
  unfold Obligations.WrittenBitsOnlyGrowUntilReset
  intro s t h
  rcases step_next_cases h with ⟨_, rfl⟩ | ⟨rest, hin, rfl⟩ | ⟨e, rest, _, _, ha⟩
  · exact ⟨rfl, fun _ => State.GrowsTo.refl _⟩
  · exact ⟨rfl, fun hne => absurd hin (hne rest)⟩
  · exact ⟨ha.params_eq, fun _ => ha.growsTo⟩

/-- Settles O39: the frame is read off each effect an operation can have. -/
theorem operationsWriteOnlyTheirRegisters : Obligations.OperationsWriteOnlyTheirRegisters := by
  unfold Obligations.OperationsWriteOnlyTheirRegisters
  intro i s t h
  cases exec_effect h with
  | halted hf => simp [hf]
  | raised hf c => simp [hf, State.raise_running hf, faulted]
  | twoResults hf hi v w => simp [hf, hi]
  | oneResult hf ht hw v => simp [hf, hw]
  | coefficient hf hi hk =>
    have hother := fun (k : Fin 18) (hne : k.val ≠ s.opa.toNat) =>
      setCal_other s (k := ⟨s.opa.toNat, hk⟩) (fun he => hne (congrArg Fin.val he))
        (calTypes[s.opa.toNat].ofWord s.opb)
    simpa [hf, hi] using hother

/-- Settles O38. -/
theorem everyOperationCompletes : Obligations.EveryOperationCompletes := by
  unfold Obligations.EveryOperationCompletes
  exact exec_completes

/-- Settles O5: the write reaches `CMD`, and the command is what the word decodes to. -/
theorem stepRunsTheDecodedCommand : Obligations.StepRunsTheDecodedCommand := by
  unfold Obligations.StepRunsTheDecodedCommand
  intro s rest c hin
  have hstep : step s = performCommand { s with inputs := rest } c := step_write (r := .cmd) hin
  rw [hstep]
  refine ⟨fun i hi _ => performCommand_of_ok hi _, fun e he hf => ?_, fun hf =>
    performCommand_halted (s := { s with inputs := rest }) hf c⟩
  rw [performCommand_of_error he, raise_eq_faulted (s := { s with inputs := rest }) hf]
  rfl

/-- Settles O2. -/
theorem engineResetClearsEverything : Obligations.EngineResetClearsEverything := by
  unfold Obligations.EngineResetClearsEverything
  intro s rest hin
  exact ⟨_, step_reset hin, ⟨rfl, rfl, rfl, rfl, rfl, rfl, rfl, rfl, rfl, rfl, rfl, rfl, rfl⟩, rfl, rfl, rfl, rfl,
    powerOn_calw s.params, powerOn_calmask s.params, rfl, rfl, powerOn_status s.params, rfl⟩

end Sys2Proof.Proofs

/-!
SUPPORT. The bits of the words the engine shows of its flags, `CALMASK` (R38) and `STATUS` (R35), and one word access at
a register's offset (R64, R65).
-/

namespace Sys2Proof.Machine

/-- Bit `k` of a list of written bits is entry `k`, and 0 beyond the list. -/
theorem bitsToNat_testBit (l : List Bool) (k : Nat) : (bitsToNat l).testBit k = l.getD k false := by
  induction l generalizing k with
  | nil => simp [bitsToNat]
  | cons b bs ih =>
    have hdiv : (b.toNat + 2 * bitsToNat bs) / 2 = bitsToNat bs := by cases b <;> simp; omega
    cases k with
    | zero => cases b <;> simp [bitsToNat]
    | succ k => rw [bitsToNat, Nat.testBit_succ, hdiv, ih, List.getD_cons_succ]

/-- Bit `k` of `CALMASK` is `CALW[k]` (R38). -/
theorem calmask_getLsbD (s : State) (k : Fin 18) : s.calmask.getLsbD k.val = s.calw[k] := by
  have hk : k.val < 32 := by omega
  rw [State.calmask, BitVec.getLsbD_ofNat, bitsToNat_testBit]
  simp [hk]

/-- `CALMASK` reads 0 above bit 17 (R38). -/
theorem calmask_getLsbD_high (s : State) {k : Nat} (h : 18 ≤ k) : s.calmask.getLsbD k = false := by
  rw [State.calmask, BitVec.getLsbD_ofNat, bitsToNat_testBit]
  simp [h]

/-- A field of `CALMASK` is all ones exactly when its entries are written (R38). -/
theorem calmask_field_allOnes (s : State) {lo n : Nat} (hn : lo + n ≤ 18) :
    s.calmask.extractLsb' lo n = BitVec.allOnes n ↔
      ∀ k : Fin 18, lo ≤ k.val ∧ k.val < lo + n → s.calw[k] = true := by
  constructor
  · intro h k hk
    have hbit := congrArg (·.getLsbD (k.val - lo)) h
    have hlo : lo + (k.val - lo) = k.val := by omega
    have hlt : k.val - lo < n := by omega
    simpa only [BitVec.getLsbD_extractLsb', BitVec.getLsbD_allOnes, hlo, hlt, calmask_getLsbD, decide_true,
      Bool.true_and] using hbit
  · intro h
    apply BitVec.eq_of_getLsbD_eq
    intro j hj
    rw [BitVec.getLsbD_extractLsb', BitVec.getLsbD_allOnes, calmask_getLsbD s ⟨lo + j, by omega⟩,
      h ⟨lo + j, by omega⟩ ⟨by simp, by simpa using hj⟩]
    simp

/-- The same field against a list of entries. -/
theorem calmask_field_ready (s : State) {lo n : Nat} {ks : List (Fin 18)} (hn : lo + n ≤ 18)
    (hks : ∀ k : Fin 18, k ∈ ks ↔ lo ≤ k.val ∧ k.val < lo + n) :
    s.calmask.extractLsb' lo n = BitVec.allOnes n ↔ s.CalReady ks := by
  simp only [calmask_field_allOnes s hn, State.CalReady, hks]

/-- The bits of `STATUS`, one range a field (R35). -/
theorem status_getLsbD (s : State) (k : Nat) :
    s.status.getLsbD k =
      if k < 1 then (BitVec.ofBool s.fault).getLsbD k
      else if k < 8 then false
      else if k < 16 then s.fcode.getLsbD (k - 8)
      else if k < 17 then (ovfmBit s.params.ovf).getLsbD (k - 16)
      else false := by
  have h0 : ∀ {n i : Nat}, (0 : BitVec n).getLsbD i = false := BitVec.getLsbD_zero
  have h8 : k - 1 < 7 ↔ k < 8 := by omega
  have h16 : k - (1 + 7) < 8 ↔ k < 16 := by omega
  have h17 : k - (1 + 7 + 8) < 1 ↔ k < 17 := by omega
  rw [State.status, BitVec.getLsbD_append, BitVec.getLsbD_append, BitVec.getLsbD_append, BitVec.getLsbD_append, h0, h0,
    Nat.sub_sub, Nat.sub_sub]
  simp only [h8, h16, h17]

/-- `OVFM` is 1 exactly under `OVF = fault` (R35). -/
theorem ovfmBit_getLsbD_zero (o : Ovf) : (ovfmBit o).getLsbD 0 = decide (o = .fault) := by
  cases o <;> rfl

/-- A word read at a register's offset answers what the register reads as (R65). -/
theorem readAt_offset (s : State) (r : WinReg) : Statement.readAt s r.offset = .next (readRegister s r) := by
  rw [Statement.readAt, step_present]
  exact performAccess_read s r

/-- A word write at a register's offset is the write of that register (R64). -/
theorem writeAt_offset (s : State) (r : WinReg) (v : Word) : Statement.writeAt s r.offset v = writeRegister s r v := by
  rw [Statement.writeAt, step_present]
  exact performAccess_write s r v

/-- A faulting read of a running engine, in the statements' words (R65, R233). -/
theorem answersFaulting_of_running {s : State} (h : s.fault = false) (c : Cause) :
    Statement.AnswersFaulting s (.next (s.faultingRead c)) c.code := by
  refine ⟨Config.freeWord s.draws, s.draws + 1, ?_⟩
  rw [State.faultingRead, State.raise_running h]
  simp [h, State.answerFree]

/-- RDCAL of an entry never written records CalUnwritten (R154, R180). -/
theorem exec_rdcal_unwritten {s : State} (hr : s.Ready .rdcal) {k : Fin 18} (ha : s.opa.toNat = k.val)
    (hk : s.calw[k] = false) : exec .rdcal s = .next (s.raise .calUnwritten) := by
  apply exec_of_body_error hr
  have hi : calIndex s.opa = .ok k := by
    rw [calIndex_of_lt (by omega : s.opa.toNat < 18)]
    simp [ha]
  have hu : ¬ s.CalReady [k] := by simpa [State.CalReady] using hk
  exact bind_eq_error.mpr (.inr ⟨k, hi, bind_eq_error.mpr (.inl (needCal_unready hu))⟩)

end Sys2Proof.Machine

namespace Sys2Proof.Proofs

open Sys2Proof.Machine Sys2Proof.Statement

/-- Settles O45: each field of the mask is read off its bits. -/
theorem calmaskShowsTheWrittenEntries : Obligations.CalmaskShowsTheWrittenEntries := by
  unfold Obligations.CalmaskShowsTheWrittenEntries
  refine ⟨fun s => ⟨calmask_getLsbD s, ?_, ?_, ?_, ?_, ?_⟩, powerOn_calmask⟩
  · apply BitVec.eq_of_getLsbD_eq
    intro j _
    simp [calmask_getLsbD_high s (Nat.le_add_right 18 j)]
  · exact calmask_field_ready s (by decide) (by decide)
  · exact calmask_field_ready s (by decide) (by decide)
  · exact calmask_field_ready s (by decide) (by decide)
  · intro v hf
    exact (writeAt_offset s .calmask v).trans (congrArg _ (raise_eq_faulted hf .badAccess))

/-- Settles O44: each field lies in one range of the bits. -/
theorem statusShowsTheFaultRecord : Obligations.StatusShowsTheFaultRecord := by
  unfold Obligations.StatusShowsTheFaultRecord
  intro s
  refine ⟨?_, ?_, ?_, ?_, ?_⟩
  · rw [status_getLsbD, if_pos (by decide)]
    cases s.fault <;> rfl
  · apply BitVec.eq_of_getLsbD_eq
    intro j hj
    rw [BitVec.getLsbD_extractLsb', status_getLsbD, if_neg (by omega), if_pos (by omega)]
    simp
  · apply BitVec.eq_of_getLsbD_eq
    intro j hj
    rw [BitVec.getLsbD_extractLsb', status_getLsbD, if_neg (by omega), if_neg (by omega), if_pos (by omega)]
    simp [hj]
  · rw [status_getLsbD]
    exact ovfmBit_getLsbD_zero _
  · apply BitVec.eq_of_getLsbD_eq
    intro j hj
    rw [BitVec.getLsbD_extractLsb', status_getLsbD, if_neg (by omega), if_neg (by omega), if_neg (by omega),
      if_neg (by omega)]
    simp

/-- Settles O1: at power-on every written bit is clear, so each read and each RDCAL faults. -/
theorem resetLeavesNothingWritten : Obligations.ResetLeavesNothingWritten := by
  unfold Obligations.ResetLeavesNothingWritten
  intro p
  have hread : ∀ r : WinReg, readRegister (State.powerOn p) r = (State.powerOn p).faultingRead .unwrittenRead →
      AnswersFaulting (State.powerOn p) (readAt (State.powerOn p) r.offset) 0x07 := by
    intro r hr
    rw [readAt_offset, hr]
    exact answersFaulting_of_running rfl .unwrittenRead
  refine ⟨⟨rfl, rfl, rfl, rfl, powerOn_calw p⟩, ?_, ?_, powerOn_calmask p, rfl, rfl, ?_, ?_⟩
  · simp only [List.forall_mem_cons]
    exact ⟨hread .opa rfl, hread .opb rfl, hread .res0 rfl, hread .res1 rfl, by simp⟩
  · intro k b
    have hk : (BitVec.ofNat 32 k.val).toNat = k.val := by
      simp only [BitVec.toNat_ofNat]; omega
    exact exec_rdcal_unwritten ⟨rfl, fun _ => rfl, nofun⟩ hk (powerOn_calw p k)
  · intro ho
    rw [powerOn_status, if_pos ho]
  · intro ho
    rw [powerOn_status, if_neg (by simp [ho])]

end Sys2Proof.Proofs

/-!
SUPPORT. Two runs that differ at most in the contents of unwritten registers and entries (R37, R43, U7): every update
keeps them so, and no operation or access reads such a content.
-/

namespace Sys2Proof.Machine

/-! ### The updates -/

namespace State.SameVisible

variable {s t : State}

theorem raise (h : s.SameVisible t) (c : Cause) : (s.raise c).SameVisible (t.raise c) := by
  have ⟨hwa, hwb, hw0, hw1, hcw, hf, hc, hp, hi, ha, hd, ea, eb, e0, e1, ecal⟩ := h
  cases hs : s.fault with
  | true => rwa [State.raise_halted hs, State.raise_halted (hf ▸ hs)]
  | false =>
    rw [State.raise_running hs, State.raise_running (hf ▸ hs)]
    exact ⟨hwa, hwb, hw0, hw1, hcw, rfl, rfl, hp, hi, ha, hd, ea, eb, e0, e1, ecal⟩

theorem setOpa (h : s.SameVisible t) (v : Word) : (s.setOpa v).SameVisible (t.setOpa v) := by
  obtain ⟨_, hwb, hw0, hw1, hcw, hf, hc, hp, hi, ha, hd, _, eb, e0, e1, ecal⟩ := h
  exact ⟨rfl, hwb, hw0, hw1, hcw, hf, hc, hp, hi, ha, hd, fun _ => rfl, eb, e0, e1, ecal⟩

theorem setOpb (h : s.SameVisible t) (v : Word) : (s.setOpb v).SameVisible (t.setOpb v) := by
  obtain ⟨hwa, _, hw0, hw1, hcw, hf, hc, hp, hi, ha, hd, ea, _, e0, e1, ecal⟩ := h
  exact ⟨hwa, rfl, hw0, hw1, hcw, hf, hc, hp, hi, ha, hd, ea, fun _ => rfl, e0, e1, ecal⟩

theorem setRes0 (h : s.SameVisible t) (v : Word) : (s.setRes0 v).SameVisible (t.setRes0 v) := by
  obtain ⟨hwa, hwb, _, hw1, hcw, hf, hc, hp, hi, ha, hd, ea, eb, _, e1, ecal⟩ := h
  exact ⟨hwa, hwb, rfl, hw1, hcw, hf, hc, hp, hi, ha, hd, ea, eb, fun _ => rfl, e1, ecal⟩

theorem setRes1 (h : s.SameVisible t) (v : Word) : (s.setRes1 v).SameVisible (t.setRes1 v) := by
  obtain ⟨hwa, hwb, hw0, _, hcw, hf, hc, hp, hi, ha, hd, ea, eb, e0, _, ecal⟩ := h
  exact ⟨hwa, hwb, hw0, rfl, hcw, hf, hc, hp, hi, ha, hd, ea, eb, e0, fun _ => rfl, ecal⟩

theorem setCal (h : s.SameVisible t) (k : Fin 18) (v : Int) : (s.setCal k v).SameVisible (t.setCal k v) := by
  obtain ⟨hwa, hwb, hw0, hw1, hcw, hf, hc, hp, hi, ha, hd, ea, eb, e0, e1, ecal⟩ := h
  refine ⟨hwa, hwb, hw0, hw1, congrArg (·.set k true) hcw, hf, hc, hp, hi, ha, hd, ea, eb, e0, e1, fun j hj => ?_⟩
  rw [setCal_calw_get] at hj
  rw [setCal_cal_get, setCal_cal_get]
  split
  · rfl
  · rename_i hkj
    rw [if_neg hkj] at hj
    exact ecal j hj

theorem answer (h : s.SameVisible t) (v : Word) : (s.answer v).SameVisible (t.answer v) := by
  obtain ⟨hwa, hwb, hw0, hw1, hcw, hf, hc, hp, hi, ha, hd, ea, eb, e0, e1, ecal⟩ := h
  exact ⟨hwa, hwb, hw0, hw1, hcw, hf, hc, hp, hi, congrArg (· ++ [v]) ha, hd, ea, eb, e0, e1, ecal⟩

/-- The same number of free words drawn, so the same free word (U6). -/
theorem answerFree (h : s.SameVisible t) : s.answerFree.SameVisible t.answerFree := by
  obtain ⟨hwa, hwb, hw0, hw1, hcw, hf, hc, hp, hi, ha, hd, ea, eb, e0, e1, ecal⟩ := h
  refine ⟨hwa, hwb, hw0, hw1, hcw, hf, hc, hp, hi, ?_, congrArg (· + 1) hd, ea, eb, e0, e1, ecal⟩
  simp only [State.answerFree_answers, ha, hd]

theorem faultingRead (h : s.SameVisible t) (c : Cause) : (s.faultingRead c).SameVisible (t.faultingRead c) :=
  (h.raise c).answerFree

theorem engineReset (h : s.SameVisible t) : s.engineReset.SameVisible t.engineReset := by
  obtain ⟨_, _, _, _, _, _, _, hp, hi, ha, hd, _, _, _, _, _⟩ := h
  have heq : s.engineReset = t.engineReset := by simp only [State.engineReset, hp, hi, ha, hd]
  rw [heq]
  exact ⟨rfl, rfl, rfl, rfl, rfl, rfl, rfl, rfl, rfl, rfl, rfl, fun _ => rfl, fun _ => rfl, fun _ => rfl, fun _ => rfl,
    fun _ _ => rfl⟩

/-- The same next event taken off both. -/
theorem withInputs (h : s.SameVisible t) (rest : List HostEvent) :
    State.SameVisible { s with inputs := rest } { t with inputs := rest } := by
  obtain ⟨hwa, hwb, hw0, hw1, hcw, hf, hc, hp, _, ha, hd, ea, eb, e0, e1, ecal⟩ := h
  exact ⟨hwa, hwb, hw0, hw1, hcw, hf, hc, hp, rfl, ha, hd, ea, eb, e0, e1, ecal⟩

/-! ### What both runs see alike -/

theorem fault_eq (h : s.SameVisible t) : s.fault = t.fault := by
  obtain ⟨_, _, _, _, _, hf, _⟩ := h
  exact hf

theorem params_eq (h : s.SameVisible t) : s.params = t.params := by
  obtain ⟨_, _, _, _, _, _, _, hp, _⟩ := h
  exact hp

theorem inputs_eq (h : s.SameVisible t) : s.inputs = t.inputs := by
  obtain ⟨_, _, _, _, _, _, _, _, hi, _⟩ := h
  exact hi

theorem status_eq (h : s.SameVisible t) : s.status = t.status := by
  obtain ⟨_, _, _, _, _, hf, hc, hp, _⟩ := h
  simp only [State.status, hf, hc, hp]

theorem calmask_eq (h : s.SameVisible t) : s.calmask = t.calmask := by
  obtain ⟨_, _, _, _, hcw, _⟩ := h
  simp only [State.calmask, hcw]

theorem needCal_eq (h : s.SameVisible t) (ks : List (Fin 18)) : s.needCal ks = t.needCal ks := by
  obtain ⟨_, _, _, _, hcw, _⟩ := h
  simp only [State.needCal, hcw]

theorem agreeOn (h : s.SameVisible t) {ks : List (Fin 18)} (hk : s.CalReady ks) : AgreeOn ks s.cal t.cal := by
  obtain ⟨_, _, _, _, _, _, _, _, _, _, _, _, _, _, _, ecal⟩ := h
  exact fun k hmem => ecal k (hk k hmem)

/-- A ready operation sees the same `OPA`: it is written in both runs (R85). -/
theorem opa_eq (h : s.SameVisible t) {i : Instr} (hr : s.Ready i) : s.opa = t.opa := by
  obtain ⟨_, _, _, _, _, _, _, _, _, _, _, ea, _⟩ := h
  obtain ⟨_, hwa, _⟩ := hr
  exact ea (hwa (readsOpa_eq_true i))

/-- A ready operation that reads `OPB` sees the same `OPB` (R85). -/
theorem opb_eq (h : s.SameVisible t) {i : Instr} (hr : s.Ready i) (hi : readsOpb i = true) : s.opb = t.opb := by
  obtain ⟨_, _, _, _, _, _, _, _, _, _, _, _, eb, _⟩ := h
  obtain ⟨_, _, hwb⟩ := hr
  exact eb (hwb hi)

end State.SameVisible

/-! ### The operations -/

/-- Two own rules end alike: with the same fault, or in states that differ at most in unwritten contents. -/
inductive SameEnd : Except Cause State → Except Cause State → Prop where
  | ok {s t : State} (h : s.SameVisible t) : SameEnd (.ok s) (.ok t)
  | error (c : Cause) : SameEnd (.error c) (.error c)

/-- Two rules that begin with the same step end alike if they do after every value it can have. -/
theorem SameEnd.bind {α : Type} {x y : Except Cause α} {f g : α → Except Cause State} (hxy : x = y)
    (hf : ∀ a, x = .ok a → SameEnd (f a) (g a)) : SameEnd (x >>= f) (y >>= g) := by
  subst hxy
  cases x with
  | error c => exact .error c
  | ok a => exact hf a rfl

theorem SameEnd.result {s t : State} (h : s.SameVisible t) {v w : Word} (hvw : v = w) :
    SameEnd (.ok (s.setRes0 v)) (.ok (t.setRes0 w)) := by
  subst hvw
  exact .ok (h.setRes0 v)

/-- No operation's own rule reads the content of an unwritten register or entry (R85, R180). -/
theorem bodyOf_sameEnd {s t : State} (h : s.SameVisible t) {i : Instr} (hr : s.Ready i) :
    SameEnd (bodyOf i s) (bodyOf i t) := by
  have ha := h.opa_eq hr
  have ho := h.params_eq
  have hb := h.opb_eq hr
  cases i with
  | tcomp =>
    refine .bind (h.needCal_eq _) fun _ hn => .bind ?_ fun tf _ => .bind (by rw [ho]) fun tc _ =>
      .ok ((h.setRes0 _).setRes1 _)
    rw [ha, ho, tCompFine_congr (h.agreeOn (needCal_ok hn))]
  | pcomp =>
    refine .bind (h.needCal_eq _) fun _ hn => .bind ?_ fun p _ => .ok (h.setRes0 _)
    rw [ha, hb rfl, ho, pComp_congr (h.agreeOn (needCal_ok hn))]
  | hcomp =>
    refine .bind (h.needCal_eq _) fun _ hn => .bind ?_ fun v _ => .ok (h.setRes0 _)
    rw [ha, hb rfl, ho, hCompPre_congr (h.agreeOn (needCal_ok hn))]
  | fxdiv10 => exact .bind (by rw [ha, hb rfl]) fun q _ => .ok (h.setRes0 q)
  | fxdiv8 => exact .bind (by rw [ha, hb rfl]) fun q _ => .ok (h.setRes0 q)
  | wrcal =>
    refine .bind (by rw [ha]) fun k _ => ?_
    rw [hb rfl]
    exact .ok (h.setCal k _)
  | rdcal =>
    refine .bind (by rw [ha]) fun k _ => .bind (h.needCal_eq _) fun _ hn => .result h ?_
    rw [h.agreeOn (needCal_ok hn) k (by simp)]
  | fxnew10 => exact .result h (by rw [ha, hb rfl])
  | fxnew8 => exact .result h (by rw [ha, hb rfl])
  | _ => exact .result h (by rw [ha])

/-- Two outcomes are of one kind: next states that differ at most in unwritten contents, the same fault of the model, or
the same refusal. -/
inductive SameOutcome : Result → Result → Prop where
  | next {s t : State} (h : s.SameVisible t) : SameOutcome (.next s) (.next t)
  | fault (r : Fault) : SameOutcome (.fault r) (.fault r)
  | refused (r : Refusal) : SameOutcome (.refused r) (.refused r)

theorem settle_sameOutcome {s t : State} (h : s.SameVisible t) {x y : Except Cause State} (hxy : SameEnd x y) :
    SameOutcome (s.settle x) (t.settle y) := by
  cases hxy with
  | ok h' => exact .next h'
  | error c => exact .next (h.raise c)

theorem exec_sameOutcome {s t : State} (h : s.SameVisible t) (i : Instr) : SameOutcome (exec i s) (exec i t) := by
  have ⟨hwa, hwb, _⟩ := h
  have hf := h.fault_eq
  rw [exec_eq_command i s, exec_eq_command i t]
  rcases command_cases s i (bodyOf i) with ⟨hs, he⟩ | ⟨hs, hu, he⟩ | ⟨hr, _⟩ | ⟨hr, _⟩
  · rw [he, command_halted i _ (hf ▸ hs)]
    exact .next h
  · rw [he, command_operand_unwritten _ (hf ▸ hs) (by rwa [← hwa, ← hwb])]
    exact .next (h.raise _)
  all_goals
    have ht : t.Ready i := by rwa [State.Ready, ← hf, ← hwa, ← hwb]
    rw [command_ready _ hr, command_ready _ ht]
    exact settle_sameOutcome h (bodyOf_sameEnd h hr)

/-! ### The host accesses -/

theorem hostStore_sameVisible {s t s' t' : State} (h : s.SameVisible t) (h' : s'.SameVisible t') :
    (hostStore s s').SameVisible (hostStore t t') := by
  cases hs : s.fault with
  | true => rwa [hostStore_halted hs, hostStore_halted (h.fault_eq ▸ hs)]
  | false => rwa [hostStore_running hs, hostStore_running (h.fault_eq ▸ hs)]

theorem writeRegister_sameOutcome {s t : State} (h : s.SameVisible t) (r : WinReg) (v : Word) :
    SameOutcome (writeRegister s r v) (writeRegister t r v) := by
  cases r with
  | cmd =>
    cases hd : decode v with
    | ok i => simpa only [writeRegister, performCommand_of_ok hd] using exec_sameOutcome h i
    | error e => simpa only [writeRegister, performCommand_of_error hd] using .next (h.raise _)
  | opa => exact .next (hostStore_sameVisible h (h.setOpa v))
  | opb => exact .next (hostStore_sameVisible h (h.setOpb v))
  | _ => exact .next (h.raise _)

/-- A host read answers the content only of a register that is written (R65). -/
theorem readWritten_sameVisible {s t : State} (h : s.SameVisible t) {w w' : Bool} {v v' : Word} (hw : w = w')
    (hv : w = true → v = v') : (readWritten s w v).SameVisible (readWritten t w' v') := by
  subst hw
  cases w with
  | true => rw [hv rfl]; exact h.answer v'
  | false => exact h.faultingRead _

theorem readRegister_sameVisible {s t : State} (h : s.SameVisible t) (r : WinReg) :
    (readRegister s r).SameVisible (readRegister t r) := by
  have ⟨hwa, hwb, hw0, hw1, _, _, _, _, _, _, _, ea, eb, e0, e1, _⟩ := h
  cases r with
  | cmd => exact h.faultingRead _
  | opa => exact readWritten_sameVisible h hwa ea
  | opb => exact readWritten_sameVisible h hwb eb
  | res0 => exact readWritten_sameVisible h hw0 e0
  | res1 => exact readWritten_sameVisible h hw1 e1
  | status => simpa only [readRegister, h.status_eq] using h.answer t.status
  | calmask => simpa only [readRegister, h.calmask_eq] using h.answer t.calmask
  | reserved => exact h.faultingRead _

theorem performAccess_sameOutcome {s t : State} (h : s.SameVisible t) (a : Access) :
    SameOutcome (performAccess s a) (performAccess t a) := by
  cases a with
  | read addr width =>
    simp only [performAccess, h.params_eq]
    split
    · exact .fault _
    · split
      · exact .next (h.faultingRead _)
      · exact .next (readRegister_sameVisible h _)
  | write addr width v =>
    simp only [performAccess, h.params_eq]
    split
    · exact .fault _
    · split
      · exact .next (h.raise _)
      · exact writeRegister_sameOutcome h _ v

theorem performEvent_sameOutcome {s t : State} (h : s.SameVisible t) (e : HostEvent) :
    SameOutcome (performEvent s e) (performEvent t e) := by
  cases e with
  | access a => exact performAccess_sameOutcome h a
  | reset => exact .next h.engineReset
  | concurrent a b => exact .refused _

theorem step_sameOutcome {s t : State} (h : s.SameVisible t) : SameOutcome (step s) (step t) := by
  cases hin : s.inputs with
  | nil =>
    rw [step_idle hin, step_idle (h.inputs_eq ▸ hin)]
    exact .next h
  | cons e rest =>
    rw [step_event hin, step_event (h.inputs_eq ▸ hin)]
    exact performEvent_sameOutcome (h.withInputs rest) e

end Sys2Proof.Machine

namespace Sys2Proof.Proofs

open Sys2Proof.Machine

/-- Settles O49: each operation and access reads only what is written, and both runs see that alike. -/
theorem unwrittenContentIsNeverAValue : Obligations.UnwrittenContentIsNeverAValue := by
  unfold Obligations.UnwrittenContentIsNeverAValue
  intro s t h
  have hstep := step_sameOutcome h
  generalize step s = r, step t = r' at hstep
  cases hstep with
  | next h' => exact h'
  | fault => rfl
  | refused => rfl

end Sys2Proof.Proofs

/-!
SUPPORT. The decoder against the encoder, over the two fields of a command word (R80, R83), and the byte lanes of a
word (R63).
-/

namespace Sys2Proof

/-- The opcode map reads an operation exactly from that operation's `OP` (R83). -/
theorem decodeOp_eq_ok {op : BitVec 8} {i : Instr} : decodeOp op = .ok i ↔ op = opOf i := by
  constructor
  · intro h
    apply BitVec.eq_of_toNat_eq
    unfold decodeOp at h
    split at h <;> cases h <;> assumption
  · rintro rfl
    cases i <;> rfl

/-- A word is its two fields, reserved bits above `OP` (R80). -/
theorem reservedField_append_opField (c : Word) : reservedField c ++ opField c = c :=
  BitVec.extractLsb'_append_extractLsb'_eq_extractLsb' rfl |>.trans BitVec.extractLsb'_eq_self

theorem reservedField_encode (i : Instr) : reservedField (encode i) = 0 :=
  BitVec.extractLsb'_append_eq_left

theorem opField_encode (i : Instr) : opField (encode i) = opOf i :=
  BitVec.extractLsb'_append_eq_right

/-- A word is an operation's encoding exactly when its fields are (R80, R83). -/
theorem eq_encode_iff {c : Word} {i : Instr} : c = encode i ↔ reservedField c = 0 ∧ opField c = opOf i := by
  constructor
  · rintro rfl
    exact ⟨reservedField_encode i, opField_encode i⟩
  · rintro ⟨hr, ho⟩
    rw [← reservedField_append_opField c, hr, ho, encode]

/-- Decode and encode agree on words: the reserved bits are 0 and `OP` is the operation's (R80, R83). -/
theorem decode_eq_ok {c : Word} {i : Instr} : decode c = .ok i ↔ c = encode i := by
  rw [eq_encode_iff, ← decodeOp_eq_ok]
  by_cases h : reservedField c = 0
  · simp only [decode, h, if_true, true_and]
  · simp only [decode, h, if_false, false_and, reduceCtorEq]

/-- Bit `j` of lane `i` is bit `8i + j` of the word (R63). -/
theorem lane_getLsbD (w : Word) (i : Nat) {j : Nat} (hj : j < 8) : (lane w i).getLsbD j = w.getLsbD (8 * i + j) := by
  simp [lane, hj]

/-- The lanes put together give the word back (R63). -/
theorem ofLanes_lane (w : Word) : ofLanes (lane w 0) (lane w 1) (lane w 2) (lane w 3) = w := by
  have h32 : lane w 3 ++ lane w 2 = w.extractLsb' 16 16 := BitVec.extractLsb'_append_extractLsb'_eq_extractLsb' rfl
  have h321 : w.extractLsb' 16 16 ++ lane w 1 = w.extractLsb' 8 24 :=
    BitVec.extractLsb'_append_extractLsb'_eq_extractLsb' rfl
  have h3210 : w.extractLsb' 8 24 ++ lane w 0 = w.extractLsb' 0 32 :=
    BitVec.extractLsb'_append_extractLsb'_eq_extractLsb' rfl
  rw [ofLanes, h32, h321, h3210, BitVec.extractLsb'_eq_self]

/-- The byte decoder reads a word from its lanes and hands the bytes after them back (R63, R80). -/
theorem decodeBytes_laneBytes (c : Word) (rest : List Byte) :
    decodeBytes (laneBytes c ++ rest) = (decode c).map (·, rest) := by
  simp only [laneBytes, List.cons_append, List.nil_append, decodeBytes, ofLanes_lane]
  cases decode c <;> rfl

end Sys2Proof

namespace Sys2Proof.Proofs

/-- Settles O7: the byte decoder is the word decoder on the lanes, and that reads exactly the encodings. -/
theorem decodeAcceptsExactlyTheEncodings : Obligations.DecodeAcceptsExactlyTheEncodings := by
  unfold Obligations.DecodeAcceptsExactlyTheEncodings
  intro c i rest
  have hbytes : decodeBytes (laneBytes c ++ rest) = .ok (i, rest) ↔ decode c = .ok i := by
    rw [decodeBytes_laneBytes]
    cases decode c <;> simp [Except.map]
  exact ⟨decode_eq_ok, hbytes.trans decode_eq_ok⟩

/-- Settles O9. -/
theorem byteLanesCarryTheWord : Obligations.ByteLanesCarryTheWord := by
  unfold Obligations.ByteLanesCarryTheWord
  exact fun w => ⟨fun i _ _ hj => lane_getLsbD w i hj, ofLanes_lane w⟩

end Sys2Proof.Proofs

/-!
SUPPORT. What an access to the window does at each register, and where it lands on none (R61, R62, R64, R65).
-/

namespace Sys2Proof.Machine

/-- A halted engine takes no register write (R39, R64). -/
theorem writeRegister_halted {s : State} (h : s.fault = true) (r : WinReg) (v : Word) :
    writeRegister s r v = .next s := by
  cases r with
  | cmd => exact performCommand_halted h v
  | opa => exact congrArg _ (hostStore_halted h _)
  | opb => exact congrArg _ (hostStore_halted h _)
  | _ => exact congrArg _ (State.raise_halted h _)

/-- A faulting read, halted or not, in the statements' words (R65, R233, R235). -/
theorem answersFaulting_faultingRead (s : State) (c : Cause) :
    Statement.AnswersFaulting s (.next (s.faultingRead c)) c.code := by
  cases h : s.fault with
  | false => exact answersFaulting_of_running h c
  | true =>
    refine ⟨Config.freeWord s.draws, s.draws + 1, ?_⟩
    rw [State.faultingRead, State.raise_halted h]
    simp [h, State.answerFree]

/-- A read of a register with a written bit, in the statements' words (R65). -/
theorem answers_readWritten (s : State) {w : Bool} (h : w = true) (v : Word) :
    Statement.Answers s (.next (readWritten s w v)) v := by
  subst h
  rfl

theorem answersFaulting_readWritten (s : State) {w : Bool} (h : w = false) (v : Word) :
    Statement.AnswersFaulting s (.next (readWritten s w v)) 0x07 := by
  subst h
  exact answersFaulting_faultingRead s .unwrittenRead

theorem four_dvd_offset (r : WinReg) : 4 ∣ r.offset := by
  cases r <;> decide

/-- An access of another width or alignment reaches no register (R62). -/
theorem accessTarget_eq_none {off width : Nat} (h : ¬ (width = 4 ∧ 4 ∣ off)) : accessTarget off width = none := by
  rw [Option.eq_none_iff_forall_ne_some]
  intro r hr
  obtain ⟨hw, rfl⟩ := accessTarget_eq_some.mp hr
  exact h ⟨hw, four_dvd_offset r⟩

/-- A write in the window that reaches no register is a BadAccess (R62). -/
theorem step_present_write_badAccess (s : State) {off width : Nat} (hoff : off < 32)
    (h : accessTarget off width = none) (v : Word) :
    step (s.present (.access (.write (s.params.engineBase + off) width v))) = .next (s.raise .badAccess) := by
  simp only [step_present, performEvent, performAccess, windowOffset_add _ _ hoff, h]

/-- A read in the window that reaches no register is a BadAccess (R62). -/
theorem step_present_read_badAccess (s : State) {off width : Nat} (hoff : off < 32)
    (h : accessTarget off width = none) :
    step (s.present (.access (.read (s.params.engineBase + off) width))) = .next (s.faultingRead .badAccess) := by
  simp only [step_present, performEvent, performAccess, windowOffset_add _ _ hoff, h]

end Sys2Proof.Machine

namespace Sys2Proof.Proofs

open Sys2Proof.Machine Sys2Proof.Statement

/-- Settles O41: one register an offset; a halted engine takes no write of any. -/
theorem hostWritesFollowTheWindowMap : Obligations.HostWritesFollowTheWindowMap := by
  unfold Obligations.HostWritesFollowTheWindowMap
  intro s v
  refine ⟨fun hf => ⟨fun i hi => ?_, fun e he => ?_, ?_, ?_, ?_⟩, fun hf => ?_⟩
  · exact (writeAt_offset s .cmd v).trans (performCommand_of_ok hi s)
  · have hraise : s.raise .illegalOp = faulted s 0x01 := raise_eq_faulted hf .illegalOp
    rw [← hraise]
    exact (writeAt_offset s .cmd v).trans (performCommand_of_error he s)
  · exact (writeAt_offset s .opa v).trans (congrArg _ (hostStore_running hf _))
  · exact (writeAt_offset s .opb v).trans (congrArg _ (hostStore_running hf _))
  · have hraise : s.raise .badAccess = faulted s 0x08 := raise_eq_faulted hf .badAccess
    simp only [List.forall_mem_cons, ← hraise]
    exact ⟨writeAt_offset s .res0 v, writeAt_offset s .res1 v, writeAt_offset s .status v,
      writeAt_offset s .calmask v, writeAt_offset s .reserved v, by simp⟩
  · have hwrite := fun r : WinReg => (writeAt_offset s r v).trans (writeRegister_halted hf r v)
    simp only [List.forall_mem_cons]
    exact ⟨hwrite .cmd, hwrite .opa, hwrite .opb, hwrite .res0, hwrite .res1, hwrite .status, hwrite .calmask,
      hwrite .reserved, by simp⟩

/-- Settles O42: one register an offset, each answering its word, or a free one with its fault. -/
theorem hostReadsFollowTheWindowMap : Obligations.HostReadsFollowTheWindowMap := by
  unfold Obligations.HostReadsFollowTheWindowMap
  intro s
  have hopa : readAt s 0x04 = .next (readWritten s s.wOpa s.opa) := readAt_offset s .opa
  have hopb : readAt s 0x08 = .next (readWritten s s.wOpb s.opb) := readAt_offset s .opb
  have hres0 : readAt s 0x0C = .next (readWritten s s.wRes0 s.res0) := readAt_offset s .res0
  have hres1 : readAt s 0x10 = .next (readWritten s s.wRes1 s.res1) := readAt_offset s .res1
  have hcmd : readAt s 0x00 = .next (s.faultingRead .badAccess) := readAt_offset s .cmd
  have hreserved : readAt s 0x1C = .next (s.faultingRead .badAccess) := readAt_offset s .reserved
  rw [hopa, hopb, hres0, hres1, hcmd, hreserved]
  exact ⟨fun h => answers_readWritten s h _, fun h => answersFaulting_readWritten s h _,
    fun h => answers_readWritten s h _, fun h => answersFaulting_readWritten s h _,
    fun h => answers_readWritten s h _, fun h => answersFaulting_readWritten s h _,
    fun h => answers_readWritten s h _, fun h => answersFaulting_readWritten s h _,
    readAt_offset s .status, readAt_offset s .calmask,
    answersFaulting_faultingRead s .badAccess, answersFaulting_faultingRead s .badAccess⟩

/-- Settles O43: such an access reaches no register, so it is a BadAccess, recorded if it is the first fault. -/
theorem narrowOrMisalignedAccessIsBadAccess : Obligations.NarrowOrMisalignedAccessIsBadAccess := by
  unfold Obligations.NarrowOrMisalignedAccessIsBadAccess
  intro s off width v hoff hmis
  have hnone := accessTarget_eq_none hmis
  rw [step_present_write_badAccess s hoff hnone, step_present_read_badAccess s hoff hnone]
  exact ⟨fun hf => congrArg _ (raise_eq_faulted hf .badAccess), fun hf => congrArg _ (State.raise_halted hf _),
    answersFaulting_faultingRead s .badAccess⟩

/-- Settles O47: an address outside the window has no offset. -/
theorem accessOutsideTheWindowStops : Obligations.AccessOutsideTheWindowStops := by
  unfold Obligations.AccessOutsideTheWindowStops
  intro s a width v ha
  have hout := windowOffset_outside ha
  simp only [step_present, performEvent, performAccess, hout, and_self]

/-- Settles O48. -/
theorem concurrentAgentsAreRefused : Obligations.ConcurrentAgentsAreRefused := by
  unfold Obligations.ConcurrentAgentsAreRefused
  exact fun s a b => step_present s (.concurrent a b)

end Sys2Proof.Proofs

/-!
SUPPORT. The words that are no operation's encoding (R86), and what each rank of the fault order asks of a command
(R237).
-/

namespace Sys2Proof

/-- A command word, as a number, is its operation's `OP` (R80). -/
theorem encode_toNat (i : Instr) : (encode i).toNat = (opOf i).toNat := by
  cases i <;> rfl

/-- The law of the command word, for every operation at once (R80, R82, R83). -/
theorem commandWord_law : ∀ i : Instr, Laws.CommandWord.Statement i
  | .tcomp    => Laws.CommandWord.tcomp
  | .pcomp    => Laws.CommandWord.pcomp
  | .hcomp    => Laws.CommandWord.hcomp
  | .fxnew10  => Laws.CommandWord.fxnew10
  | .fxint10  => Laws.CommandWord.fxint10
  | .fxfrac10 => Laws.CommandWord.fxfrac10
  | .fxdiv10  => Laws.CommandWord.fxdiv10
  | .fxnew8   => Laws.CommandWord.fxnew8
  | .fxint8   => Laws.CommandWord.fxint8
  | .fxfrac8  => Laws.CommandWord.fxfrac8
  | .fxdiv8   => Laws.CommandWord.fxdiv8
  | .wrcal    => Laws.CommandWord.wrcal
  | .rdcal    => Laws.CommandWord.rdcal

@[simp] theorem decode_encode (i : Instr) : decode (encode i) = .ok i := decode_eq_ok.mpr rfl

end Sys2Proof

namespace Sys2Proof.Machine

/-- A word that is no encoding is an illegal command (R86, R231). -/
theorem performCommand_illegal {c : Word} (h : ∀ i, c ≠ encode i) (s : State) :
    performCommand s c = .next (s.raise .illegalOp) := by
  cases hd : decode c with
  | ok i => exact absurd (decode_eq_ok.mp hd) (h i)
  | error e => exact performCommand_of_error hd s

/-! ### The conditions of the ranks -/

/-- A running engine with no unwritten operand register among those the operation reads is ready for it (R85). -/
theorem State.Ready.of_operands {s : State} {i : Instr} (hf : s.fault = false)
    (h : ¬ ((readsOpa i = true ∧ s.wOpa = false) ∨ (readsOpb i = true ∧ s.wOpb = false))) : s.Ready i := by
  simp only [not_or, not_and, Bool.not_eq_false] at h
  exact ⟨hf, h⟩

/-- The list of the entries an operation reads, entry by entry (R41, R154). -/
theorem mem_calEntriesRead {i : Instr} {opa : Word} {k : Fin 18} :
    k ∈ calEntriesRead i opa ↔ Statement.ReadsEntry i opa k := by
  cases i with
  | tcomp =>
    have h : ∀ k : Fin 18, k ∈ tcompEntries ↔ k.val < 3 := by decide
    simpa [calEntriesRead, Statement.ReadsEntry] using h k
  | pcomp =>
    have h : ∀ k : Fin 18, k ∈ pcompEntries ↔ 3 ≤ k.val ∧ k.val < 12 := by decide
    simpa [calEntriesRead, Statement.ReadsEntry] using h k
  | hcomp =>
    have h : ∀ k : Fin 18, k ∈ hcompEntries ↔ 12 ≤ k.val := by decide
    simpa [calEntriesRead, Statement.ReadsEntry] using h k
  | rdcal =>
    by_cases h : opa.toNat < 18
    · simp [calEntriesRead, Statement.ReadsEntry, h, Fin.ext_iff]
    · simp only [calEntriesRead, Statement.ReadsEntry, h, dif_neg, not_false_eq_true, List.not_mem_nil, reduceCtorEq,
        false_and, true_and, false_or, false_iff]
      omega
  | _ => simp [calEntriesRead]

/-- The entries an operation reads are not all written when one of them is not (R180). -/
theorem not_calReady_iff {s : State} {i : Instr} :
    ¬ s.CalReady (calEntriesRead i s.opa) ↔ ∃ k : Fin 18, Statement.ReadsEntry i s.opa k ∧ s.calw[k] = false := by
  simp only [State.CalReady, mem_calEntriesRead, not_forall, Bool.not_eq_true, exists_prop]

/-- An index above 17 ends WRCAL and RDCAL with BadIndex before they look at an entry (R153, R154, R237). -/
theorem bodyOf_badIndex {i : Instr} {s : State} (hi : i = .wrcal ∨ i = .rdcal) (hk : 17 < s.opa.toNat) :
    bodyOf i s = .error .badIndex := by
  rcases hi with rfl | rfl <;> exact bind_eq_error.mpr (.inl (calIndex_of_ge hk))

/-- An unwritten entry ends the operation that reads it with CalUnwritten before it computes anything (R154, R180). -/
theorem bodyOf_calUnwritten {i : Instr} {s : State} {k : Fin 18} (hr : Statement.ReadsEntry i s.opa k)
    (hk : s.calw[k] = false) : bodyOf i s = .error .calUnwritten := by
  have hneed : s.needCal (calEntriesRead i s.opa) = .error .calUnwritten :=
    needCal_unready (not_calReady_iff.mpr ⟨k, hr, hk⟩)
  rcases hr with ⟨rfl, _⟩ | ⟨rfl, _⟩ | ⟨rfl, _⟩ | ⟨rfl, ha⟩
  · exact bind_eq_error.mpr (.inl hneed)
  · exact bind_eq_error.mpr (.inl hneed)
  · exact bind_eq_error.mpr (.inl hneed)
  · have hlt : s.opa.toNat < 18 := ha ▸ k.isLt
    rw [calEntriesRead, dif_pos hlt] at hneed
    exact bind_eq_error.mpr (.inr ⟨_, calIndex_of_lt hlt, bind_eq_error.mpr (.inl hneed)⟩)

/-- A zero divisor ends both divisions with DivideByZero (R118, R123). -/
theorem bodyOf_divideByZero {i : Instr} {s : State} (hi : i = .fxdiv10 ∨ i = .fxdiv8) (hb : s.opb = 0) :
    bodyOf i s = .error .divideByZero := by
  rcases hi with rfl | rfl
  · exact bind_eq_error.mpr (.inl (by simp [fx10Div, s32, hb]))
  · exact bind_eq_error.mpr (.inl (by simp [fx8Div, u32, hb]))

/-- A fault an operation's own rule raises under none of the ranks before is Overflow, the last (R230, R237). -/
theorem bodyOf_error_last {i : Instr} {s : State} {c : Cause} (h : bodyOf i s = .error c)
    (hindex : ¬ ((i = .wrcal ∨ i = .rdcal) ∧ 17 < s.opa.toNat))
    (hentry : ¬ ∃ k : Fin 18, Statement.ReadsEntry i s.opa k ∧ s.calw[k] = false)
    (hdivisor : ¬ ((i = .fxdiv10 ∨ i = .fxdiv8) ∧ s.opb = 0)) : c = .overflow := by
  rcases bodyOf_error h with ⟨_, hi⟩ | ⟨_, hr⟩ | ⟨_, hd⟩ | ⟨hc, _⟩
  · exact absurd hi hindex
  · exact absurd (not_calReady_iff.mp hr) hentry
  · exact absurd hd hdivisor
  · exact hc

/-! ### What a command records -/

/-- What a running engine records of its first fault (R234). -/
theorem State.raise_record {s : State} (h : s.fault = false) (c : Cause) :
    (s.raise c).fault = true ∧ (s.raise c).fcode = c.code :=
  ⟨State.raise_fault s c, State.raise_fcode_running h c⟩

/-- A running engine records OperandUnwritten before the operation's own rule is looked at (R85, R237). -/
theorem exec_record_of_operand {i : Instr} {s t : State} (hf : s.fault = false)
    (h : (readsOpa i = true ∧ s.wOpa = false) ∨ (readsOpb i = true ∧ s.wOpb = false)) (ht : exec i s = .next t) :
    t.fault = true ∧ t.fcode = Cause.operandUnwritten.code := by
  rw [exec_eq_command, command_operand_unwritten _ hf h] at ht
  cases ht
  exact State.raise_record hf _

/-- A ready operation records what its own rule raises (R234). -/
theorem exec_record_of_body_error {i : Instr} {s t : State} {c : Cause} (hr : s.Ready i)
    (hb : bodyOf i s = .error c) (ht : exec i s = .next t) : t.fault = true ∧ t.fcode = c.code := by
  rw [exec_of_body_error hr hb] at ht
  cases ht
  exact State.raise_record hr.1 c

/-- A fault a ready operation records is one its own rule raises (R234). -/
theorem exec_ready_records {i : Instr} {s t : State} (hr : s.Ready i) (ht : exec i s = .next t)
    (hfault : t.fault = true) : ∃ c, bodyOf i s = .error c ∧ t.fcode = c.code := by
  cases hb : bodyOf i s with
  | error c => exact ⟨c, rfl, (exec_record_of_body_error hr hb ht).2⟩
  | ok u =>
    rw [exec_of_body_ok hr hb] at ht
    cases ht
    simp [bodyOf_ok_fault hb, hr.1] at hfault

end Sys2Proof.Machine

namespace Sys2Proof.Proofs

open Sys2Proof.Machine Sys2Proof.Statement

/-- Settles O8: the assigned `OP` values lie outside R86's ranges, so such a word is no encoding. -/
theorem illegalCommandWordsOnlyRaiseIllegalOp : Obligations.IllegalCommandWordsOnlyRaiseIllegalOp := by
  unfold Obligations.IllegalCommandWordsOnlyRaiseIllegalOp
  intro s c hf hc
  have hne : ∀ i, c ≠ encode i := by
    rintro i rfl
    obtain ⟨_, _, hgroup⟩ := commandWord_law i
    rw [encode_toNat] at hc
    omega
  have hraise : s.raise .illegalOp = faulted s 0x01 := raise_eq_faulted hf .illegalOp
  rw [← hraise]
  exact (writeAt_offset s .cmd c).trans (performCommand_illegal hne s)

/-- Settles O36: each rank's condition decides how the command ends once the ranks before it are excluded. -/
theorem faultsFollowThePriority : Obligations.FaultsFollowThePriority := by
  unfold Obligations.FaultsFollowThePriority
  refine ⟨fun s c hf => ?_, fun s off width hf hoff hmis => ?_⟩
  · cases hd : decode c with
    | error e =>
      exact ⟨_, (writeAt_offset s .cmd c).trans (performCommand_of_error hd s),
        fun _ => State.raise_record hf .illegalOp, fun i hi => by simp [hi] at hd⟩
    | ok j =>
      obtain rfl := decode_eq_ok.mp hd
      obtain ⟨t, ht⟩ := exec_completes j s
      refine ⟨t, ((writeAt_offset s .cmd _).trans (performCommand_of_ok hd s)).trans ht,
        fun hne => absurd rfl (hne j), fun i hi => ?_⟩
      obtain rfl : j = i := by simpa [hi] using hd.symm
      intro operand index entry divisor
      have hready : ¬ operand → s.Ready j := State.Ready.of_operands hf
      refine ⟨fun ho => exec_record_of_operand hf ho ht,
        fun ho ⟨hi, hk⟩ => exec_record_of_body_error (hready ho) (bodyOf_badIndex hi hk) ht,
        fun ho _ ⟨k, hr, hk⟩ => exec_record_of_body_error (hready ho) (bodyOf_calUnwritten hr hk) ht,
        fun ho _ _ ⟨hi, hb⟩ => exec_record_of_body_error (hready ho) (bodyOf_divideByZero hi hb) ht,
        fun ho hindex hentry hdivisor hfault => ?_⟩
      obtain ⟨c, hb, hcode⟩ := exec_ready_records (hready ho) ht hfault
      rw [hcode, bodyOf_error_last hb hindex hentry hdivisor]
      rfl
  · exact ⟨_, step_present_read_badAccess s hoff (accessTarget_eq_none hmis),
      State.raise_fcode_running hf .badAccess⟩

/-- Settles O6: the thirteen words are the encodings. -/
theorem commandWordsDecodeAsTheTableSays : Obligations.CommandWordsDecodeAsTheTableSays := by
  unfold Obligations.CommandWordsDecodeAsTheTableSays
  exact ⟨decode_encode .tcomp, decode_encode .pcomp, decode_encode .hcomp, decode_encode .fxnew10,
    decode_encode .fxint10, decode_encode .fxfrac10, decode_encode .fxdiv10, decode_encode .fxnew8,
    decode_encode .fxint8, decode_encode .fxfrac8, decode_encode .fxdiv8, decode_encode .wrcal, decode_encode .rdcal⟩

end Sys2Proof.Proofs

/-!
SUPPORT. The fixed-point operations (40_fixed_point.md): how a command ends by its operand registers, and the words of
the two kinds as numbers (R115 to R123).
-/

namespace Sys2Proof.Machine

/-! ### How a fixed-point command ends -/

/-- A running engine records OperandUnwritten for an operand register the operation reads, in the statements' words
(R85). -/
theorem exec_operand_unwritten {i : Instr} {s : State} (hf : s.fault = false)
    (h : s.wOpa = false ∨ (readsOpb i = true ∧ s.wOpb = false)) : exec i s = .next (Statement.faulted s 0x06) := by
  have hc := command_operand_unwritten (bodyOf i) hf (h.imp_left fun ha => ⟨readsOpa_eq_true i, ha⟩)
  rw [exec_eq_command, hc, raise_eq_faulted hf]
  rfl

/-- Both operand registers written: a running engine is ready for every operation (R85). -/
theorem State.Ready.of_written {i : Instr} {s : State} (hf : s.fault = false) (ha : s.wOpa = true)
    (hb : s.wOpb = true) : s.Ready i :=
  ⟨hf, fun _ => ha, fun _ => hb⟩

/-- `OPA` written: a running engine is ready for every operation that reads no other operand (R84, R85). -/
theorem State.Ready.of_opa {i : Instr} {s : State} (hi : readsOpb i = false) (hf : s.fault = false)
    (ha : s.wOpa = true) : s.Ready i :=
  ⟨hf, fun _ => ha, fun hb => by simp [hi] at hb⟩

/-- A ready operation whose own rule writes `RES0` alone, its result rewritten. -/
theorem exec_of_body_result {i : Instr} {s : State} {v w : Word} (hr : s.Ready i)
    (hb : bodyOf i s = .ok (s.setRes0 v)) (hv : v = w) : exec i s = .next (s.setRes0 w) :=
  hv ▸ exec_of_body_ok hr hb

/-- A zero divisor ends a ready division with DivideByZero, in the statements' words (R118, R123). -/
theorem exec_divideByZero {i : Instr} {s : State} (hi : i = .fxdiv10 ∨ i = .fxdiv8) (hr : s.Ready i)
    (hb : s.opb = 0) : exec i s = .next (Statement.faulted s 0x02) := by
  have ⟨hf, _⟩ := hr
  rw [exec_of_body_error hr (bodyOf_divideByZero hi hb), raise_eq_faulted hf]
  rfl

/-! ### The words of the two kinds -/

/-- Two low fields put together, as a number: what is above either field is lost. -/
theorem append_lowFields (i f : Word) (n k : Nat) :
    i.extractLsb' 0 n ++ f.extractLsb' 0 k = BitVec.ofNat (n + k) (i.toNat * 2 ^ k + f.toNat % 2 ^ k) := by
  have hpos : 0 < 2 ^ k := Nat.two_pow_pos k
  have hf : f.toNat % 2 ^ k < 2 ^ k := Nat.mod_lt _ hpos
  have hdiv : (i.toNat * 2 ^ k + f.toNat % 2 ^ k) / 2 ^ k = i.toNat := by
    rw [Nat.mul_comm, Nat.mul_add_div hpos, Nat.div_eq_of_lt hf, Nat.add_zero]
  apply BitVec.eq_of_toNat_eq
  rw [BitVec.toNat_append, BitVec.extractLsb'_toNat, BitVec.extractLsb'_toNat, Nat.shiftRight_zero, Nat.shiftRight_zero,
    ← Nat.shiftLeft_add_eq_or_of_lt hf, Nat.shiftLeft_eq, BitVec.toNat_ofNat, Nat.pow_add, Nat.mul_comm (2 ^ n),
    Nat.mod_mul, hdiv, Nat.mul_add_mod_of_lt hf, Nat.mul_comm, Nat.add_comm]

/-- A low field, zero-extended, as a number: the fraction of both kinds (R117, R122). -/
theorem lowField_setWidth (w : Word) (n : Nat) :
    (w.extractLsb' 0 n).setWidth 32 = BitVec.ofNat 32 (w.toNat % 2 ^ n) := by
  rw [← BitVec.ofNat_toNat, BitVec.extractLsb'_toNat, Nat.shiftRight_zero]

/-- The FX10 word of an integer and a fraction (R115): the integer may be read signed or unsigned, as only its low 22
bits are kept. -/
theorem fx10New_eq (i f : Word) : fx10New i f = BitVec.ofInt 32 (i.toInt * 1024 + ((f.toNat % 1024 : Nat) : Int)) := by
  rw [fx10New, append_lowFields]
  apply BitVec.eq_of_toNat_eq
  simp only [BitVec.toNat_ofNat, BitVec.toNat_ofInt, BitVec.toInt_eq_toNat_cond]
  omega

/-- The integer field of an FX10 word, sign-extended, is the floor of the value (R116). -/
theorem fx10Integer_signExtend (w : Word) : (fx10Integer w).signExtend 32 = BitVec.ofInt 32 (w.toInt / 1024) :=
  congrArg (BitVec.ofInt 32) (fx10Integer_toInt w)

/-- The integer field of an FX8 word, zero-extended (R121). -/
theorem fx8Integer_setWidth (w : Word) : (fx8Integer w).setWidth 32 = BitVec.ofNat 32 (w.toNat / 256) := by
  have hlt : w.toNat / 2 ^ 8 < 2 ^ 24 := Nat.div_lt_of_lt_mul w.isLt
  rw [fx8Integer, ← BitVec.ofNat_toNat, BitVec.extractLsb'_toNat, Nat.shiftRight_eq_div_pow, Nat.mod_eq_of_lt hlt]
  rfl

/-- R17's truncating division, in the statements' words: the quotient of the magnitudes with the sign of the product. -/
theorem tdiv_eq_truncDiv (a b : Int) : tdiv a b = Statement.truncDiv a b := by
  rw [tdiv, Statement.truncDiv, ← Int.sign_mul_natAbs (a.tdiv b), Int.sign_tdiv, Int.natAbs_tdiv]
  split
  · rename_i hlt
    rw [Nat.div_eq_of_lt hlt]
    simp
  · rfl

/-- The FX10 quotient by a divisor that is not zero (R118). -/
theorem fx10Div_of_ne {b : Word} (hb : b ≠ 0) (a : Word) :
    fx10Div a b = .ok (BitVec.ofInt 32 (Statement.truncDiv (a.toInt * 1024) b.toInt)) := by
  have h0 : s32 b ≠ 0 := fun h => hb (BitVec.eq_of_toInt_eq (by simpa [s32] using h))
  rw [fx10Div, if_neg h0, tdiv_eq_truncDiv]
  rfl

/-- The FX8 quotient by a divisor that is not zero (R123). -/
theorem fx8Div_of_ne {b : Word} (hb : b ≠ 0) (a : Word) :
    fx8Div a b = .ok (BitVec.ofNat 32 (a.toNat * 256 / b.toNat)) := by
  have h0 : u32 b ≠ 0 := fun h => hb (BitVec.eq_of_toNat_eq (by simpa [u32] using h))
  rw [fx8Div, if_neg h0, word, BitVec.ofInt_natCast]
  rfl

/-- FXDIV10 by a divisor that is not zero (R118). -/
theorem exec_fxdiv10 {s : State} (hr : s.Ready .fxdiv10) (hb : s.opb ≠ 0) :
    exec .fxdiv10 s =
      .next (s.setRes0 (BitVec.ofInt 32 (Statement.truncDiv (s.opa.toInt * 1024) s.opb.toInt))) :=
  exec_of_body_ok hr (bind_eq_ok.mpr ⟨_, fx10Div_of_ne hb s.opa, rfl⟩)

/-- FXDIV8 by a divisor that is not zero (R123). -/
theorem exec_fxdiv8 {s : State} (hr : s.Ready .fxdiv8) (hb : s.opb ≠ 0) :
    exec .fxdiv8 s = .next (s.setRes0 (BitVec.ofNat 32 (s.opa.toNat * 256 / s.opb.toNat))) :=
  exec_of_body_ok hr (bind_eq_ok.mpr ⟨_, fx8Div_of_ne hb s.opa, rfl⟩)

end Sys2Proof.Machine

namespace Sys2Proof.Proofs

open Sys2Proof.Machine Sys2Proof.Statement

/-- Settles O10. -/
theorem fxnew10BuildsTheWord : Obligations.Fxnew10BuildsTheWord := by
  unfold Obligations.Fxnew10BuildsTheWord
  refine ⟨decode_encode .fxnew10, fun s hf => ⟨fun hu => ?_, fun ha hb => ?_⟩⟩
  · exact exec_operand_unwritten hf (hu.imp_right fun hb => ⟨rfl, hb⟩)
  · exact exec_of_body_result (.of_written hf ha hb) rfl (fx10New_eq s.opa s.opb)

/-- Settles O11. -/
theorem fxint10GivesTheIntegerField : Obligations.Fxint10GivesTheIntegerField := by
  unfold Obligations.Fxint10GivesTheIntegerField
  refine ⟨decode_encode .fxint10, fun s hf => ⟨fun hu => ?_, fun ha => ?_⟩⟩
  · exact exec_operand_unwritten hf (.inl hu)
  · exact exec_of_body_result (.of_opa rfl hf ha) rfl (fx10Integer_signExtend s.opa)

/-- Settles O12. -/
theorem fxfrac10GivesTheFractionField : Obligations.Fxfrac10GivesTheFractionField := by
  unfold Obligations.Fxfrac10GivesTheFractionField
  refine ⟨decode_encode .fxfrac10, fun s hf => ⟨fun hu => ?_, fun ha => ?_⟩⟩
  · exact exec_operand_unwritten hf (.inl hu)
  · exact exec_of_body_result (.of_opa rfl hf ha) rfl (lowField_setWidth s.opa 10)

/-- Settles O13: the model's truncating division is the statement's. -/
theorem fxdiv10TruncatesTowardZero : Obligations.Fxdiv10TruncatesTowardZero := by
  unfold Obligations.Fxdiv10TruncatesTowardZero
  refine ⟨decode_encode .fxdiv10, fun s hf => ⟨fun hu => ?_, fun ha hb h0 => ?_, fun ha hb hne => ?_⟩⟩
  · exact exec_operand_unwritten hf (hu.imp_right fun hb => ⟨rfl, hb⟩)
  · exact exec_divideByZero (.inl rfl) (.of_written hf ha hb) h0
  · exact exec_fxdiv10 (.of_written hf ha hb) hne

/-- Settles O14. -/
theorem fxnew8BuildsTheWord : Obligations.Fxnew8BuildsTheWord := by
  unfold Obligations.Fxnew8BuildsTheWord
  refine ⟨decode_encode .fxnew8, fun s hf => ⟨fun hu => ?_, fun ha hb => ?_⟩⟩
  · exact exec_operand_unwritten hf (hu.imp_right fun hb => ⟨rfl, hb⟩)
  · exact exec_of_body_result (.of_written hf ha hb) rfl (append_lowFields s.opa s.opb 24 8)

/-- Settles O15. -/
theorem fxint8GivesTheIntegerField : Obligations.Fxint8GivesTheIntegerField := by
  unfold Obligations.Fxint8GivesTheIntegerField
  refine ⟨decode_encode .fxint8, fun s hf => ⟨fun hu => ?_, fun ha => ?_⟩⟩
  · exact exec_operand_unwritten hf (.inl hu)
  · exact exec_of_body_result (.of_opa rfl hf ha) rfl (fx8Integer_setWidth s.opa)

/-- Settles O16. -/
theorem fxfrac8GivesTheFractionField : Obligations.Fxfrac8GivesTheFractionField := by
  unfold Obligations.Fxfrac8GivesTheFractionField
  refine ⟨decode_encode .fxfrac8, fun s hf => ⟨fun hu => ?_, fun ha => ?_⟩⟩
  · exact exec_operand_unwritten hf (.inl hu)
  · exact exec_of_body_result (.of_opa rfl hf ha) rfl (lowField_setWidth s.opa 8)

/-- Settles O17. -/
theorem fxdiv8DividesUnsigned : Obligations.Fxdiv8DividesUnsigned := by
  unfold Obligations.Fxdiv8DividesUnsigned
  refine ⟨decode_encode .fxdiv8, fun s hf => ⟨fun hu => ?_, fun ha hb h0 => ?_, fun ha hb hne => ?_⟩⟩
  · exact exec_operand_unwritten hf (hu.imp_right fun hb => ⟨rfl, hb⟩)
  · exact exec_divideByZero (.inr rfl) (.of_written hf ha hb) h0
  · exact exec_fxdiv8 (.of_written hf ha hb) hne

end Sys2Proof.Proofs

/-!
SUPPORT. The fixed-point quotients as rational numbers (R19, R124), and the two fields of a word put together again
(R125).
-/

namespace Sys2Proof.Machine

/-! ### The quotients -/

/-- A rounded-down quotient is within one of the true one. -/
theorem natDiv_bounds (a b : Nat) :
    ((a / b : Nat) : ℚ) ≤ (a : ℚ) / b ∧ (a : ℚ) / b < ((a / b : Nat) : ℚ) + 1 := by
  rw [← Nat.floor_div_eq_div (K := ℚ)]
  exact ⟨Nat.floor_le (by positivity), Nat.lt_floor_add_one _⟩

/-- A true quotient is the quotient of the magnitudes with the sign of the product. -/
theorem intCast_div_eq_sign_mul (a b : Int) :
    (a : ℚ) / b = ((a.sign * b.sign : Int) : ℚ) * ((a.natAbs : ℚ) / b.natAbs) := by
  have hb : (b.sign : ℚ)⁻¹ = b.sign := by
    rcases Int.sign_trichotomy b with h | h | h <;> norm_num [h]
  have hmag : ∀ c : Int, (c : ℚ) = c.sign * c.natAbs := fun c => by
    rw [← Int.cast_natCast c.natAbs, ← Int.cast_mul, Int.sign_mul_natAbs]
  calc (a : ℚ) / b = (a.sign * a.natAbs) / (b.sign * b.natAbs) := by rw [← hmag a, ← hmag b]
    _ = a.sign * (b.sign : ℚ)⁻¹ * (a.natAbs / b.natAbs) := by rw [mul_div_mul_comm, div_eq_mul_inv (a.sign : ℚ)]
    _ = _ := by rw [hb]; push_cast; rfl

/-- A truncated quotient is less than one away from the true one, and lies between 0 and it (R17, R124). -/
theorem truncDiv_bounds (a b : Int) :
    |(a : ℚ) / b - Statement.truncDiv a b| < 1 ∧
    ((0 ≤ (Statement.truncDiv a b : ℚ) ∧ (Statement.truncDiv a b : ℚ) ≤ (a : ℚ) / b) ∨
      ((a : ℚ) / b ≤ Statement.truncDiv a b ∧ (Statement.truncDiv a b : ℚ) ≤ 0)) := by
  obtain ⟨hle, hlt⟩ := natDiv_bounds a.natAbs b.natAbs
  have hq : (0 : ℚ) ≤ ((a.natAbs / b.natAbs : Nat) : ℚ) := Nat.cast_nonneg _
  have hcast : (Statement.truncDiv a b : ℚ) =
      ((a.sign * b.sign : Int) : ℚ) * ((a.natAbs / b.natAbs : Nat) : ℚ) := by
    rw [Statement.truncDiv, Int.cast_mul, Int.cast_natCast]
  rw [intCast_div_eq_sign_mul, hcast, ← Int.sign_mul]
  generalize ((a.natAbs / b.natAbs : Nat) : ℚ) = q, (a.natAbs : ℚ) / b.natAbs = x at hle hlt hq
  rcases Int.sign_trichotomy (a * b) with h | h | h
  · rw [h, Int.cast_one, one_mul, one_mul]
    exact ⟨abs_lt.mpr ⟨by linarith, by linarith⟩, .inl ⟨hq, hle⟩⟩
  · rw [h, Int.cast_zero, zero_mul, zero_mul]
    simp
  · rw [h, Int.cast_neg, Int.cast_one, neg_one_mul, neg_one_mul]
    exact ⟨abs_lt.mpr ⟨by linarith, by linarith⟩, .inr ⟨by linarith, by linarith⟩⟩

/-- The true quotient of two FX8 words, in units of the last place (R19, R112). -/
theorem fx8Value_div (a b : Word) : fx8Value a / fx8Value b = ((a.toNat * 256 : Nat) : ℚ) / b.toNat / 256 := by
  unfold fx8Value u32
  push_cast
  rw [div_div_div_cancel_right₀ (by norm_num)]
  ring

/-- The true quotient of two FX10 words, in units of the last place (R19, R111). -/
theorem fx10Value_div (a b : Word) : fx10Value a / fx10Value b = ((a.toInt * 1024 : Int) : ℚ) / b.toInt / 1024 := by
  unfold fx10Value s32
  push_cast
  rw [div_div_div_cancel_right₀ (by norm_num)]
  ring

/-- The value of an FX8 word that keeps the whole of its number. -/
theorem fx8Value_ofNat {n : Nat} (h : n < 2 ^ 32) : fx8Value (BitVec.ofNat 32 n) = (n : ℚ) / 256 := by
  rw [fx8Value, u32, BitVec.toNat_ofNat, Nat.mod_eq_of_lt h]
  norm_num

/-- The value of an FX10 word that keeps the whole of its number. -/
theorem fx10Value_ofInt {v : Int} (h : Statement.Fits32 v) : fx10Value (BitVec.ofInt 32 v) = (v : ℚ) / 1024 := by
  obtain ⟨hlo, hhi⟩ := h
  rw [fx10Value, s32, BitVec.toInt_ofInt, Int.bmod_eq_of_le (by simpa using hlo) (by simpa using hhi)]
  norm_num

/-! ### The two fields put together -/

/-- The two fields of an FX10 word give it back (R125). -/
theorem fx10New_fields (w : Word) :
    fx10New ((fx10Integer w).signExtend 32) ((fx10Fraction w).setWidth 32) = w := by
  have hi : ((fx10Integer w).signExtend 32).toInt = (fx10Integer w).toInt :=
    BitVec.toInt_signExtend_of_le (by decide)
  have hf : ((fx10Fraction w).setWidth 32).toNat = (fx10Fraction w).toNat :=
    BitVec.toNat_setWidth_of_le (by decide)
  rw [fx10New_eq, hi, hf, Nat.mod_eq_of_lt (fx10Fraction w).isLt, ← s32_eq_fx10_fields]
  exact word_s32 w

/-- The two fields of an FX8 word give it back (R125). -/
theorem fx8New_fields (w : Word) : fx8New ((fx8Integer w).setWidth 32) ((fx8Fraction w).setWidth 32) = w := by
  rw [fx8New, BitVec.extractLsb'_setWidth_of_le (by decide), BitVec.extractLsb'_setWidth_of_le (by decide),
    BitVec.extractLsb'_eq_self, BitVec.extractLsb'_eq_self]
  exact (BitVec.extractLsb'_append_extractLsb'_eq_extractLsb' rfl).trans BitVec.extractLsb'_eq_self

/-- A running engine whose host has written both operands performs an operation that writes `RES0` alone (R31, R85). -/
theorem exec_withOperands {i : Instr} {s : State} {a b v : Word} (hf : s.fault = false)
    (hb : bodyOf i (Statement.withOperands s a b) = .ok ((Statement.withOperands s a b).setRes0 v)) :
    exec i (Statement.withOperands s a b) = .next ((Statement.withOperands s a b).setRes0 v) :=
  exec_of_body_ok (.of_written hf rfl rfl) hb

end Sys2Proof.Machine

namespace Sys2Proof.Proofs

open Sys2Proof.Machine Sys2Proof.Statement

/-- Settles O18: a quotient that fits is the rounded quotient itself, whose bounds are those of its rounding. -/
theorem divisionIsAccurateToOneUnit : Obligations.DivisionIsAccurateToOneUnit := by
  unfold Obligations.DivisionIsAccurateToOneUnit
  refine ⟨fun s hr hb hfit => ⟨_, exec_fxdiv8 hr hb, ?_⟩, fun s hr hb hfit => ⟨_, exec_fxdiv10 hr hb, ?_⟩⟩
  · obtain ⟨hle, hlt⟩ := natDiv_bounds (s.opa.toNat * 256) s.opb.toNat
    rw [State.setRes0_res0, fx8Value_ofNat hfit, fx8Value_div, BitVec.toNat_ofNat, Nat.mod_eq_of_lt hfit]
    exact ⟨by gcongr, by gcongr⟩
  · obtain ⟨habs, hbetween⟩ := truncDiv_bounds (s.opa.toInt * 1024) s.opb.toInt
    rw [State.setRes0_res0, fx10Value_ofInt hfit, fx10Value_div, ← sub_div, abs_div]
    refine ⟨by rw [abs_of_pos (by norm_num : (0 : ℚ) < 1024)]; gcongr, hbetween.imp ?_ ?_⟩
    · exact fun ⟨h0, hq⟩ => ⟨by positivity, by gcongr⟩
    · exact fun ⟨hq, h0⟩ => ⟨by gcongr, div_nonpos_of_nonpos_of_nonneg h0 (by norm_num)⟩

/-- Settles O19: no operation of the three faults, and the two fields give the word back. -/
theorem constructionRoundTrips : Obligations.ConstructionRoundTrips := by
  unfold Obligations.ConstructionRoundTrips
  intro s w x hf
  constructor
  · exact ⟨_, _, _, exec_withOperands hf rfl, exec_withOperands hf rfl, exec_withOperands hf rfl, fx10New_fields w⟩
  · exact ⟨_, _, _, exec_withOperands hf rfl, exec_withOperands hf rfl, exec_withOperands hf rfl, fx8New_fields w⟩

end Sys2Proof.Proofs

/-!
SUPPORT. The coefficient file (41_coefficients.md section 2): what the low bits of a word give under each entry's type,
and how WRCAL and RDCAL end.
-/

namespace Sys2Proof.Machine

/-! ### The low bits of a word -/

/-- Sign extension of a bit vector's unsigned reading is its signed reading (R16). -/
theorem sext_toNat {n : Nat} (hn : 0 < n) (x : BitVec n) : sext n x.toNat = x.toInt := by
  rw [sext_eq_wrapS hn, wrapS, BitVec.toInt_eq_toNat_bmod]

/-- Sign extension looks at the low bits alone (R16). -/
theorem sext_of_emod_eq {n : Nat} {v w : Int} (h : v % 2 ^ n = w % 2 ^ n) : sext n v = sext n w := by
  unfold sext
  rw [h]

/-- The low bits of the word of an integer are the integer's (R16). -/
theorem u32_word_emod {n : Nat} (hn : n ≤ 32) (v : Int) : (u32 (word v) : Int) % 2 ^ n = v % 2 ^ n := by
  have hword : (u32 (word v) : Int) = v % 2 ^ 32 := by
    rw [u32, word, BitVec.toNat_ofInt, Int.toNat_of_nonneg (Int.emod_nonneg _ (by decide))]
    rfl
  rw [hword, Int.emod_emod_of_dvd v (pow_dvd_pow 2 hn)]

/-- A signed entry takes the signed reading of the word's low bits (R153). -/
theorem ofWord_signed {n : Nat} (hn : 0 < n) (w : Word) : CalType.ofWord ⟨n, true⟩ w = (w.setWidth n).toInt := by
  rw [← sext_toNat hn, BitVec.toNat_setWidth]
  apply sext_of_emod_eq
  simp [u32]

/-- An unsigned entry takes the unsigned reading of the word's low bits (R153). -/
theorem ofWord_unsigned (n : Nat) (w : Word) : CalType.ofWord ⟨n, false⟩ w = ((w.toNat % 2 ^ n : Nat) : Int) := by
  simp [CalType.ofWord, zext, u32]

/-- An integer that fits a type comes back from its own word (R150, R153). -/
theorem ofWord_word {t : CalType} (hpos : 0 < t.width) (hle : t.width ≤ 32) {v : Int} (h : t.Holds v) :
    t.ofWord (word v) = v := by
  obtain ⟨n, signed⟩ := t
  obtain ⟨hlo, hhi⟩ := h
  cases signed with
  | true =>
    have hfits : fitsS n v = true := (fitsS_iff n v).mpr ⟨hlo, Int.lt_of_le_sub_one hhi⟩
    calc sext n (u32 (word v)) = sext n v := sext_of_emod_eq (u32_word_emod hle v)
      _ = v := by rw [sext_eq_wrapS hpos, wrapS_of_fits hpos hfits]
  | false =>
    calc (u32 (word v) : Int) % 2 ^ n = v % 2 ^ n := u32_word_emod hle v
      _ = v := Int.emod_eq_of_lt hlo (Int.lt_of_le_sub_one hhi)

/-! ### The types of the entries -/

/-- The type of every entry, in the statements' grouping (R150). -/
theorem calTypes_eq (k : Fin 18) : calTypes[k] =
    if k.val = 0 ∨ k.val = 3 then ⟨16, false⟩ else if k.val = 12 ∨ k.val = 14 then ⟨8, false⟩
    else if k.val = 17 then ⟨8, true⟩ else ⟨16, true⟩ := by
  revert k; decide

/-- The integer WRCAL stores, in the statements' words (R150, R153). -/
theorem ofWord_eq_storedValue (k : Fin 18) (w : Word) : calTypes[k].ofWord w = Statement.storedValue k w := by
  rw [calTypes_eq, Statement.storedValue]
  split
  · exact ofWord_unsigned 16 w
  · split
    · exact ofWord_unsigned 8 w
    · split
      · exact ofWord_signed (by decide) w
      · exact ofWord_signed (by decide) w

/-- WRCAL keeps an integer that fits its entry unchanged (R153, R163). -/
theorem storedValue_word {k : Fin 18} {v : Int} (h : calTypes[k].Holds v) : Statement.storedValue k (word v) = v := by
  have hwidth := calTypes_width k
  rw [← ofWord_eq_storedValue, ofWord_word (by omega) (by omega) h]

/-! ### How WRCAL and RDCAL end -/

/-- The word of a coefficient index gives the index back. -/
theorem toNat_indexWord (k : Fin 18) : (BitVec.ofNat 32 k.val).toNat = k.val := by
  rw [BitVec.toNat_ofNat]
  omega

/-- An operand that names an entry (R153, R154). -/
theorem calIndex_of_eq {w : Word} {k : Fin 18} (h : w.toNat = k.val) : calIndex w = .ok k := by
  rw [calIndex_of_lt (h ▸ k.isLt)]
  exact congrArg _ (Fin.ext h)

/-- An index above 17 records BadIndex, in the statements' words (R153, R154). -/
theorem exec_badIndex {i : Instr} {s : State} (hi : i = .wrcal ∨ i = .rdcal) (hr : s.Ready i)
    (hk : 17 < s.opa.toNat) : exec i s = .next (Statement.faulted s 0x05) := by
  have ⟨hf, _⟩ := hr
  exact (exec_of_body_error hr (bodyOf_badIndex hi hk)).trans (congrArg _ (raise_eq_faulted hf .badIndex))

/-- WRCAL of an index in range (R153). -/
theorem exec_wrcal {s : State} (hr : s.Ready .wrcal) {k : Fin 18} (ha : s.opa.toNat = k.val) :
    exec .wrcal s = .next (s.setCal k (Statement.storedValue k s.opb)) := by
  rw [← ofWord_eq_storedValue]
  exact exec_of_body_ok hr (bind_eq_ok.mpr ⟨k, calIndex_of_eq ha, rfl⟩)

/-- RDCAL of a written entry (R154). -/
theorem exec_rdcal_written {s : State} (hr : s.Ready .rdcal) {k : Fin 18} (ha : s.opa.toNat = k.val)
    (hk : s.calw[k] = true) : exec .rdcal s = .next (s.setRes0 (word s.cal[k])) := by
  have hneed : s.needCal [k] = .ok () := needCal_ready (by simpa [State.CalReady] using hk)
  exact exec_of_body_ok hr (bind_eq_ok.mpr ⟨k, calIndex_of_eq ha, bind_eq_ok.mpr ⟨(), hneed, rfl⟩⟩)

/-- WRCAL on a running engine whose host has just written an entry's index and a word (R31, R153). -/
theorem exec_wrcal_withOperands {s : State} (hf : s.fault = false) (k : Fin 18) (v : Word) :
    exec .wrcal (Statement.withOperands s (BitVec.ofNat 32 k.val) v) =
      .next ((Statement.withOperands s (BitVec.ofNat 32 k.val) v).setCal k (Statement.storedValue k v)) :=
  exec_wrcal (s := Statement.withOperands s _ v) (.of_written hf rfl rfl) (toNat_indexWord k)

/-- RDCAL on a running engine whose host has just written an entry's index: the entry's word if the entry is written,
else CalUnwritten (R31, R154). -/
theorem exec_rdcal_withOperands {s : State} (hf : s.fault = false) (j : Fin 18) (x : Word) :
    ∃ u, exec .rdcal (Statement.withOperands s (BitVec.ofNat 32 j.val) x) = .next u ∧
      (s.calw[j] = true → u.fault = false ∧ u.res0 = word s.cal[j]) ∧
      (s.calw[j] = false → u.fault = true ∧ u.fcode = 0x04) := by
  have hr : (Statement.withOperands s (BitVec.ofNat 32 j.val) x).Ready .rdcal := .of_written hf rfl rfl
  cases hw : s.calw[j] with
  | true => exact ⟨_, exec_rdcal_written hr (toNat_indexWord j) hw, fun _ => ⟨hf, rfl⟩, nofun⟩
  | false => exact ⟨_, exec_rdcal_unwritten hr (toNat_indexWord j) hw, nofun,
    fun _ => State.raise_record (s := Statement.withOperands s _ x) hf .calUnwritten⟩

/-- Writing an entry sets its bit of `CALMASK` and no other (R38, R153). -/
theorem calmask_setCal (s : State) (k : Fin 18) (v : Int) :
    (s.setCal k v).calmask = s.calmask ||| (1 <<< k.val) := by
  apply BitVec.eq_of_getLsbD_eq
  intro j hj32
  have hbit : BitVec.getLsbD ((1 <<< k.val : Nat) : Word) j = decide (k.val = j) := by
    rw [BitVec.natCast_eq_ofNat, BitVec.getLsbD_ofNat, Nat.one_shiftLeft, Nat.testBit_two_pow, decide_eq_true hj32,
      Bool.true_and]
  rw [BitVec.getLsbD_or, hbit]
  by_cases hj : j < 18
  · rw [calmask_getLsbD _ ⟨j, hj⟩, calmask_getLsbD _ ⟨j, hj⟩, setCal_calw_get]
    by_cases hkj : k.val = j <;> simp [Fin.ext_iff, hkj]
  · rw [calmask_getLsbD_high _ (by omega), calmask_getLsbD_high _ (by omega), decide_eq_false (by omega)]
    rfl

end Sys2Proof.Machine

namespace Sys2Proof.Proofs

open Sys2Proof.Machine Sys2Proof.Statement

/-- Settles O22: the stored value is the model's, type by type, and its bit of the mask is set. -/
theorem wrcalStoresTheTypedValue : Obligations.WrcalStoresTheTypedValue := by
  unfold Obligations.WrcalStoresTheTypedValue
  refine ⟨decode_encode .wrcal, fun s hf => ⟨fun hu => ?_, fun ha hb hk => ?_, fun k ha hb hk => ?_⟩⟩
  · exact exec_operand_unwritten hf (hu.imp_right fun hb => ⟨rfl, hb⟩)
  · exact exec_badIndex (.inl rfl) (.of_written hf ha hb) hk
  · exact ⟨_, exec_wrcal (.of_written hf ha hb) hk, rfl, calmask_setCal s k _⟩

/-- Settles O23. -/
theorem rdcalReturnsTheEntry : Obligations.RdcalReturnsTheEntry := by
  unfold Obligations.RdcalReturnsTheEntry
  refine ⟨decode_encode .rdcal, fun s hf => ⟨fun hu => ?_, fun ha hk => ?_, fun k ha hk =>
    ⟨fun hw => ?_, fun hw => ?_⟩⟩⟩
  · exact exec_operand_unwritten hf (.inl hu)
  · exact exec_badIndex (.inr rfl) (.of_opa rfl hf ha) hk
  · exact (exec_rdcal_unwritten (.of_opa rfl hf ha) hk hw).trans (congrArg _ (raise_eq_faulted hf .calUnwritten))
  · exact exec_rdcal_written (.of_opa rfl hf ha) hk hw

/-- Settles O24: after the write, RDCAL finds the entry written, or another entry as it was before. -/
theorem coefficientsReadBackAsWritten : Obligations.CoefficientsReadBackAsWritten := by
  unfold Obligations.CoefficientsReadBackAsWritten
  intro s k j v x hf
  obtain ⟨u, hu, hwritten, hunwritten⟩ := exec_rdcal_withOperands
    (s := (withOperands s (BitVec.ofNat 32 k.val) v).setCal k (storedValue k v)) hf j x
  rw [setCal_calw_get] at hwritten hunwritten
  rw [setCal_cal_get] at hwritten
  refine ⟨_, u, exec_wrcal_withOperands hf k v, hu, ?_, fun hjk hw => ?_, fun hjk hw => ?_⟩
  · rintro rfl
    rw [if_pos rfl, if_pos rfl] at hwritten
    exact hwritten rfl
  · rw [if_neg hjk.symm, if_neg hjk.symm] at hwritten
    exact hwritten hw
  · rw [if_neg hjk.symm] at hunwritten
    exact hunwritten hw

end Sys2Proof.Proofs

/-!
SUPPORT. The host-side decoding (41_coefficients.md section 3): the formulas of R160 to R166 are concatenations of the
sensor's bytes.
-/

namespace Sys2Proof.Machine

/-! ### Bytes put together -/

/-- A concatenation, as a number: the high part above the low one. -/
theorem append_toNat {m n : Nat} (x : BitVec m) (y : BitVec n) : (x ++ y).toNat = x.toNat * 2 ^ n + y.toNat := by
  rw [BitVec.toNat_append, ← Nat.shiftLeft_add_eq_or_of_lt y.isLt, Nat.shiftLeft_eq]

/-- A little-endian field is the unsigned reading of its two bytes, the second above the first (R160). -/
theorem le16_eq (lo hi : Byte) : le16 lo hi = ((hi ++ lo).toNat : Int) := by
  rw [append_toNat, le16]
  push_cast
  ring

/-- A signed little-endian field is the signed reading of its two bytes (R161, R162). -/
theorem sext_le16 (lo hi : Byte) : sext 16 (le16 lo hi) = (hi ++ lo).toInt := by
  rw [le16_eq]
  exact sext_toNat (n := 16) (by decide) (hi ++ lo)

/-- `dig_h4` is byte 3 above the low nibble of byte 4, read signed (R162). -/
theorem decodeDigH4_eq (blk2 : CalBlock2) : decodeDigH4 blk2 = (blk2[3] ++ blk2[4].extractLsb' 0 4).toInt := by
  rw [← sext_toNat (by decide), append_toNat, BitVec.extractLsb'_toNat, Nat.shiftRight_zero]
  rfl

/-- `dig_h5` is byte 5 above the high nibble of byte 4, read signed (R162). -/
theorem decodeDigH5_eq (blk2 : CalBlock2) : decodeDigH5 blk2 = (blk2[5] ++ blk2[4].extractLsb' 4 4).toInt := by
  have hlt := blk2[4].isLt
  rw [decodeDigH5, sext_le16, asr, BitVec.toInt_append, BitVec.toInt_append, BitVec.extractLsb'_toNat,
    Nat.shiftRight_eq_div_pow]
  simp only [Nat.reduceBEq, Bool.false_eq_true, if_false]
  omega

/-- A 20-bit raw code is the top 20 bits of its three bytes, most significant first (R166). -/
theorem raw20_eq (hi mid lo : Byte) : raw20 hi mid lo = ((hi ++ mid ++ lo).extractLsb' 4 20).toNat := by
  have hhi := hi.isLt
  have hmid := mid.isLt
  have hlo := lo.isLt
  rw [BitVec.extractLsb'_toNat, append_toNat, append_toNat, Nat.shiftRight_eq_div_pow, raw20]
  omega

/-- The 18 coefficients as fields of the two blocks, in index order (R161, R162). -/
theorem decodeCalibration_eq_fields (blk1 : CalBlock1) (blk2 : CalBlock2) : decodeCalibration blk1 blk2 =
    #v[((blk1[1] ++ blk1[0]).toNat : Int), (blk1[3] ++ blk1[2]).toInt, (blk1[5] ++ blk1[4]).toInt,
       ((blk1[7] ++ blk1[6]).toNat : Int), (blk1[9] ++ blk1[8]).toInt, (blk1[11] ++ blk1[10]).toInt,
       (blk1[13] ++ blk1[12]).toInt, (blk1[15] ++ blk1[14]).toInt, (blk1[17] ++ blk1[16]).toInt,
       (blk1[19] ++ blk1[18]).toInt, (blk1[21] ++ blk1[20]).toInt, (blk1[23] ++ blk1[22]).toInt,
       (blk1[25].toNat : Int), (blk2[1] ++ blk2[0]).toInt, (blk2[2].toNat : Int),
       (blk2[3] ++ blk2[4].extractLsb' 0 4).toInt, (blk2[5] ++ blk2[4].extractLsb' 4 4).toInt, blk2[6].toInt] := by
  have h6 : sext 8 blk2[6].toNat = blk2[6].toInt := sext_toNat (by decide) blk2[6]
  simp only [decodeCalibration, sext_le16, decodeDigH4_eq, decodeDigH5_eq, h6]
  simp only [le16_eq]

/-! ### The range of each field -/

/-- An unsigned field of an entry's width fits it (R150). -/
theorem holds_toNat {n : Nat} (x : BitVec n) : CalType.Holds ⟨n, false⟩ (x.toNat : Int) :=
  ⟨Int.natCast_nonneg _, Int.le_sub_one_of_lt (mod_cast x.isLt)⟩

/-- A signed field no wider than an entry fits it (R150). -/
theorem holds_toInt {m n : Nat} (h : m ≤ n) (x : BitVec m) : CalType.Holds ⟨n, true⟩ x.toInt := by
  have hpow : (2 : Int) ^ (m - 1) ≤ 2 ^ (n - 1) := pow_le_pow_right₀ (by decide) (Nat.sub_le_sub_right h 1)
  exact ⟨(neg_le_neg hpow).trans x.le_toInt, x.toInt_le.trans (sub_le_sub_right hpow 1)⟩

/-- Every decoded coefficient fits its entry's type: its field is no wider than the entry and of its sign (R163). -/
theorem decodeCalibration_holds (blk1 : CalBlock1) (blk2 : CalBlock2) (k : Fin 18) :
    calTypes[k].Holds (decodeCalibration blk1 blk2)[k] := by
  have unsigned16 (x : BitVec 16) : CalType.Holds ⟨16, false⟩ x.toNat := holds_toNat x
  have unsigned8 (x : BitVec 8) : CalType.Holds ⟨8, false⟩ x.toNat := holds_toNat x
  have signed16 (x : BitVec 16) : CalType.Holds ⟨16, true⟩ x.toInt := holds_toInt (by decide) x
  have signed12 (x : BitVec 12) : CalType.Holds ⟨16, true⟩ x.toInt := holds_toInt (by decide) x
  have signed8 (x : BitVec 8) : CalType.Holds ⟨8, true⟩ x.toInt := holds_toInt (by decide) x
  rw [decodeCalibration_eq_fields]
  fin_cases k
  exacts [unsigned16 _, signed16 _, signed16 _, unsigned16 _, signed16 _, signed16 _, signed16 _, signed16 _,
    signed16 _, signed16 _, signed16 _, signed16 _, unsigned8 _, signed16 _, unsigned8 _, signed12 _, signed12 _,
    signed8 _]

/-! ### The blocks at their addresses -/

/-- Entry `i` of block 1 is the byte at `0x88 + i` (R160). -/
theorem readCalBlock1_getElem (sensor : SensorBytes) (i : Nat) (h : i < 26) :
    (readCalBlock1 sensor)[i] = sensor (0x88 + i) := readBlock_getElem sensor calBlock1Base 26 i h

/-- Entry `i` of block 2 is the byte at `0xE1 + i` (R160). -/
theorem readCalBlock2_getElem (sensor : SensorBytes) (i : Nat) (h : i < 16) :
    (readCalBlock2 sensor)[i] = sensor (0xE1 + i) := readBlock_getElem sensor calBlock2Base 16 i h

/-- Entry `i` of the raw block is the byte at `0xF7 + i` (R165). -/
theorem readRawBlock_getElem (sensor : SensorBytes) (i : Nat) (h : i < 8) :
    (readRawBlock sensor)[i] = sensor (0xF7 + i) := readBlock_getElem sensor rawBlockBase 8 i h

/-- The addresses of a block, by its first and last one. -/
theorem mem_blockAddresses_iff_le {base n last : Nat} (h : base + n = last + 1) (a : Nat) :
    a ∈ blockAddresses base n ↔ base ≤ a ∧ a ≤ last := by
  rw [mem_blockAddresses, h, Nat.lt_succ_iff]

end Sys2Proof.Machine

namespace Sys2Proof.Proofs

open Sys2Proof.Machine Sys2Proof.Statement

/-- Settles O50: each field is as narrow as its entry, and what fits an entry comes back from its own word. -/
theorem decodedCoefficientsFitTheirEntries : Obligations.DecodedCoefficientsFitTheirEntries := by
  unfold Obligations.DecodedCoefficientsFitTheirEntries
  intro blk1 blk2 k
  have hholds := decodeCalibration_holds blk1 blk2 k
  refine ⟨hholds, fun s hf => ⟨_, exec_wrcal_withOperands hf k _, ?_, ?_⟩⟩
  · rw [setCal_cal_get, if_pos rfl]
    exact storedValue_word hholds
  · rw [setCal_calw_get, if_pos rfl]

/-- Settles O51, by the first thirteen fields of the decoded vector. -/
theorem blockOneDecodesLittleEndian : Obligations.BlockOneDecodesLittleEndian := by
  unfold Obligations.BlockOneDecodesLittleEndian
  intro blk1 blk2
  rw [decodeCalibration_eq_fields]
  exact ⟨rfl, rfl, rfl, rfl, rfl, rfl, rfl, rfl, rfl, rfl, rfl, rfl, rfl⟩

/-- Settles O52, by the last five fields of the decoded vector. -/
theorem blockTwoDecodesItsFields : Obligations.BlockTwoDecodesItsFields := by
  unfold Obligations.BlockTwoDecodesItsFields
  intro blk1 blk2
  rw [decodeCalibration_eq_fields]
  exact ⟨rfl, rfl, rfl, rfl, rfl⟩

/-- Settles O53: the codes are fields of 20, 20 and 16 bits, which gives their ranges. -/
theorem rawCodesAreMostSignificantFirst : Obligations.RawCodesAreMostSignificantFirst := by
  unfold Obligations.RawCodesAreMostSignificantFirst
  intro m
  have hp : decodeAdcP m = ((m[0] ++ m[1] ++ m[2]).extractLsb' 4 20).toNat := raw20_eq m[0] m[1] m[2]
  have ht : decodeAdcT m = ((m[3] ++ m[4] ++ m[5]).extractLsb' 4 20).toNat := raw20_eq m[3] m[4] m[5]
  have hh : decodeAdcH m = (m[6] ++ m[7]).toNat := (append_toNat m[6] m[7]).symm
  exact ⟨hp, ht, hh, hp ▸ Nat.le_sub_one_of_lt (BitVec.isLt _),
    ht ▸ Nat.le_sub_one_of_lt (BitVec.isLt _), hh ▸ Nat.le_sub_one_of_lt (BitVec.isLt _)⟩

/-- Settles O54. -/
theorem calibrationBlocksLieAtTheirAddresses : Obligations.CalibrationBlocksLieAtTheirAddresses := by
  unfold Obligations.CalibrationBlocksLieAtTheirAddresses
  have h1 := mem_blockAddresses_iff_le (base := calBlock1Base) (n := 26) (last := 0xA1) rfl
  have h2 := mem_blockAddresses_iff_le (base := calBlock2Base) (n := 16) (last := 0xF0) rfl
  refine ⟨fun sensor => ⟨fun i => readCalBlock1_getElem sensor i i.isLt,
    fun i => readCalBlock2_getElem sensor i i.isLt⟩, h1, h2, fun a ⟨ha1, ha2⟩ => ?_, fun _ _ => rfl⟩
  have hle : a ≤ 0xA1 := ((h1 a).mp ha1).2
  have hge : 0xE1 ≤ a := ((h2 a).mp ha2).1
  omega

/-- Settles O55: the fields of the two blocks, each byte at its address. -/
theorem coefficientsLieAtTheirAddresses : Obligations.CoefficientsLieAtTheirAddresses := by
  unfold Obligations.CoefficientsLieAtTheirAddresses
  intro sensor
  have h1 := blockOneDecodesLittleEndian (readCalBlock1 sensor) (readCalBlock2 sensor)
  have h2 := blockTwoDecodesItsFields (readCalBlock1 sensor) (readCalBlock2 sensor)
  simp only [readCalBlock1_getElem, readCalBlock2_getElem, Nat.reduceAdd] at h1 h2
  simpa only [and_assoc] using And.intro h1 h2

/-- Settles O56: the codes of the raw block, each byte at its address. -/
theorem rawBlockLiesAtItsAddresses : Obligations.RawBlockLiesAtItsAddresses := by
  unfold Obligations.RawBlockLiesAtItsAddresses
  refine ⟨mem_blockAddresses_iff_le rfl, fun sensor => ⟨fun i => readRawBlock_getElem sensor i i.isLt, ?_⟩⟩
  obtain ⟨hp, ht, hh, _⟩ := rawCodesAreMostSignificantFirst (readRawBlock sensor)
  simp only [readRawBlock_getElem, Nat.reduceAdd] at hp ht hh
  exact ⟨hp, ht, hh⟩

end Sys2Proof.Proofs

/-!
SUPPORT. The compensation functions under `OVF = wrap` (R12, R17): each step is one step of two's-complement machine
arithmetic, so each function is the machine formula the statements give it.
-/

namespace Sys2Proof.Machine

/-! ### One arithmetic step -/

/-- A step that raises nothing hands its value on. -/
theorem ok_bind {α β : Type} (a : α) (f : α → Except Cause β) : (Except.ok a >>= f) = f a := pure_bind a f

/-- A wrapped integer is the signed reading of its bit vector (R17). -/
theorem wrapS_eq_toInt (n : Nat) (v : Int) : wrapS n v = (BitVec.ofInt n v).toInt := (BitVec.toInt_ofInt v).symm

theorem ofInt_sub {n : Nat} (a b : Int) : BitVec.ofInt n (a - b) = BitVec.ofInt n a - BitVec.ofInt n b := by
  rw [Int.sub_eq_add_neg, BitVec.ofInt_add, BitVec.ofInt_neg, BitVec.sub_eq_add_neg]

theorem toInt_eq_zero {n : Nat} {x : BitVec n} : x.toInt = 0 ↔ x = 0 := by
  rw [← BitVec.toInt_inj, BitVec.ofNat_eq_ofNat, BitVec.toInt_zero]

theorem add_wrap (n : Nat) (a b : Int) : add .wrap n a b = .ok (BitVec.ofInt n a + BitVec.ofInt n b).toInt := by
  rw [add, chk_wrap, wrapS_eq_toInt, BitVec.ofInt_add]

theorem sub_wrap (n : Nat) (a b : Int) : sub .wrap n a b = .ok (BitVec.ofInt n a - BitVec.ofInt n b).toInt := by
  rw [sub, chk_wrap, wrapS_eq_toInt, ofInt_sub]

theorem mul_wrap (n : Nat) (a b : Int) : mul .wrap n a b = .ok (BitVec.ofInt n a * BitVec.ofInt n b).toInt := by
  rw [mul, chk_wrap, wrapS_eq_toInt, BitVec.ofInt_mul]

/-- The one quotient that does not fit, the least integer by -1, wraps in the machine's division too (R17, log 19). -/
theorem sdiv_wrap {n : Nat} {x y : BitVec n} (h : y ≠ 0) : sdiv .wrap n x.toInt y.toInt = .ok (x.sdiv y).toInt := by
  rw [sdiv, if_neg (toInt_eq_zero.not.mpr h), chk_wrap, BitVec.toInt_sdiv]
  rfl

theorem shl_eq_toInt (n : Nat) (a : Int) (k : Nat) : shl n a k = (BitVec.ofInt n a <<< k).toInt := by
  have hpow : BitVec.ofInt n (2 ^ k) = BitVec.twoPow n k := by
    apply BitVec.eq_of_toNat_eq
    rw [← Nat.cast_ofNat, ← Nat.cast_pow, BitVec.ofInt_natCast, BitVec.toNat_ofNat, BitVec.toNat_twoPow]
  rw [shl, wrapS_eq_toInt, BitVec.ofInt_mul, BitVec.shiftLeft_eq_mul_twoPow, hpow]

theorem asr_toInt {n : Nat} (x : BitVec n) (k : Nat) : asr x.toInt k = (x.sshiftRight k).toInt := by
  rw [asr, BitVec.toInt_sshiftRight, Int.shiftRight_eq_div_pow, Nat.cast_pow, Nat.cast_ofNat]

/-- The signed reading of a word, taken in 64 bits (R190). -/
theorem s32_eq_signExtend (w : Word) : s32 w = (w.signExtend 64).toInt :=
  (BitVec.toInt_signExtend_of_le (by decide)).symm

/-- The word of a 64-bit result is its low 32 bits (R192). -/
theorem word_toInt_64 (x : BitVec 64) : word x.toInt = x.setWidth 32 :=
  BitVec.signExtend_eq_setWidth_of_le x (by decide)

/-! ### The functions -/

theorem tCompFine_wrap (cal : Coeffs) (adcT : Word) :
    tCompFine .wrap cal (s32 adcT) = .ok (s32 (Statement.tempWrap cal adcT).1) := by
  simp only [tCompFine, s32, add_wrap, sub_wrap, mul_wrap, shl_eq_toInt, asr_toInt, ok_bind, BitVec.ofInt_toInt,
    Statement.tempWrap, Coeffs.digT1, Coeffs.digT2, Coeffs.digT3]

theorem tCompCenti_wrap (tFine : Word) :
    tCompCenti .wrap (s32 tFine) = .ok (s32 ((tFine * 5 + 128).sshiftRight 8)) := by
  simp only [tCompCenti, s32, add_wrap, mul_wrap, asr_toInt, ok_bind, BitVec.ofInt_toInt, BitVec.ofInt_ofNat,
    BitVec.ofNat_eq_ofNat]

theorem pCompNorm_wrap (cal : Coeffs) (tFine : Word) :
    pCompNorm .wrap cal (s32 tFine) =
      .ok ((Statement.presNormWrap cal tFine).1.toInt, (Statement.presNormWrap cal tFine).2.toInt) := by
  have h47 : ((1 <<< 47 : Nat) : BitVec 64) = 1#64 <<< 47 := by decide
  simp only [pCompNorm, s32_eq_signExtend, add_wrap, sub_wrap, mul_wrap, shl_eq_toInt, asr_toInt, ok_bind,
    BitVec.ofInt_toInt, BitVec.ofInt_ofNat, BitVec.ofNat_eq_ofNat, h47, Statement.presNormWrap, Coeffs.digP1,
    Coeffs.digP2, Coeffs.digP3, Coeffs.digP4, Coeffs.digP5, Coeffs.digP6]

/-- The pressure word, on both sides of the zero short-circuit (R191). -/
theorem pComp_wrap (cal : Coeffs) (tFine adcP : Word) :
    ∃ p, pComp .wrap cal (s32 tFine) (s32 adcP) = .ok p ∧ word p = Statement.presWrap cal tFine adcP := by
  rw [pComp, pCompNorm_wrap, ok_bind, Statement.presWrap]
  simp only [toInt_eq_zero]
  by_cases h : (Statement.presNormWrap cal tFine).1 = 0
  · rw [if_pos h, if_pos h]
    exact ⟨0, rfl, rfl⟩
  · rw [if_neg h, if_neg h]
    simp only [pCompScale, s32_eq_signExtend adcP, add_wrap, sub_wrap, mul_wrap, sdiv_wrap h, shl_eq_toInt, asr_toInt,
      ok_bind, BitVec.ofInt_toInt, BitVec.ofInt_ofNat, BitVec.ofNat_eq_ofNat, Coeffs.digP7, Coeffs.digP8, Coeffs.digP9]
    exact ⟨_, rfl, word_toInt_64 _⟩

theorem hCompPre_wrap (cal : Coeffs) (tFine adcH : Word) :
    hCompPre .wrap cal (s32 tFine) (s32 adcH) = .ok (s32 (Statement.humAccWrap cal tFine adcH)) := by
  simp only [hCompPre, s32, add_wrap, sub_wrap, mul_wrap, shl_eq_toInt, asr_toInt, ok_bind, BitVec.ofInt_toInt,
    BitVec.ofInt_ofNat, BitVec.ofNat_eq_ofNat, Statement.humAccWrap, Coeffs.digH1, Coeffs.digH2, Coeffs.digH3,
    Coeffs.digH4, Coeffs.digH5, Coeffs.digH6]

/-- With `dig_p1 = 0` the normalisation term is a product with 0 (R191). -/
theorem presNormWrap_of_digP1_zero {cal : Coeffs} (h : cal[3] = 0) (tFine : Word) :
    (Statement.presNormWrap cal tFine).1 = 0 := by
  simp [Statement.presNormWrap, h]

/-- A zero normalisation term makes the pressure word 0 (R191). -/
theorem presWrap_of_norm_zero {cal : Coeffs} {tFine : Word} (h : (Statement.presNormWrap cal tFine).1 = 0)
    (adcP : Word) : Statement.presWrap cal tFine adcP = 0 := by
  rw [Statement.presWrap, if_pos h]

end Sys2Proof.Machine

/-!
SUPPORT. The compensation functions under `OVF = fault` (R12, R17): a computation makes a list of checks, and ends with
its exact value where every one of them fits, else with Overflow.
-/

namespace Sys2Proof.Machine

/-- The computation checks the integers `xs` against width `n` and ends with `v`, or with Overflow where one of them
does not fit. -/
def Checks {α : Type} (n : Nat) (x : Except Cause α) (xs : List Int) (v : α) : Prop :=
  ((∀ y ∈ xs, fitsS n y = true) → x = .ok v) ∧ ((∃ y ∈ xs, ¬ fitsS n y = true) → x = .error .overflow)

namespace Checks

variable {α β : Type} {n : Nat} {x : Except Cause α} {xs ys : List Int} {a : α} {b : β}

theorem ok (a : α) : Checks n (.ok a) [] a := ⟨fun _ => rfl, by simp⟩

/-- One checked step (R17). -/
theorem chk (v : Int) : Checks n (Machine.chk .fault n v) [v] v := by
  cases hv : fitsS n v with
  | true => simp [Checks, hv, chk_fault_of_fits hv]
  | false => simp [Checks, hv, chk_fault_of_not_fits hv]

/-- A computation after another makes its checks after the other's. -/
theorem bind {f : α → Except Cause β} (hx : Checks n x xs a) (hf : Checks n (f a) ys b) :
    Checks n (x >>= f) (xs ++ ys) b := by
  obtain ⟨hxok, hxoverflow⟩ := hx
  obtain ⟨hfok, hfoverflow⟩ := hf
  simp only [Checks, List.mem_append]
  by_cases h : ∀ y ∈ xs, fitsS n y = true
  · rw [hxok h, ok_bind]
    refine ⟨fun hall => hfok fun y hy => hall y (.inr hy), ?_⟩
    rintro ⟨y, hy | hy, hn⟩
    · exact absurd (h y hy) hn
    · exact hfoverflow ⟨y, hy, hn⟩
  · rw [hxoverflow (by simpa using h)]
    exact ⟨fun hall => absurd (fun y hy => hall y (.inl hy)) h, fun _ => rfl⟩

/-- One checked step before the rest of a computation. -/
theorem step {v : Int} {f : Int → Except Cause β} (hf : Checks n (f v) ys b) :
    Checks n (Machine.chk .fault n v >>= f) (v :: ys) b :=
  (chk v).bind hf

/-- What only makes something of the value checks nothing more. -/
theorem bind_ok {f : α → Except Cause β} (hx : Checks n x xs a) (hf : f a = .ok b) : Checks n (x >>= f) xs b := by
  have h : Checks n (x >>= f) (xs ++ []) b := hx.bind (by rw [hf]; exact .ok b)
  rwa [List.append_nil] at h

/-- A check made twice counts once. -/
theorem of_repeat {v : Int} (hv : v ∈ xs ++ ys) (h : Checks n x (xs ++ v :: ys) a) : Checks n x (xs ++ ys) a := by
  have hmem : ∀ y, y ∈ xs ++ v :: ys ↔ y ∈ xs ++ ys := fun y => by
    rw [List.mem_append, List.mem_cons, or_left_comm, ← List.mem_append]
    exact or_iff_right_of_imp fun hy => hy ▸ hv
  simpa only [Checks, hmem] using h

end Checks

/-- `fitsS` at 32 bits, in the statements' words (R17). -/
theorem fitsS_32 (v : Int) : fitsS 32 v = true ↔ Statement.Fits32 v := fitsS_iff 32 v

/-- `fitsS` at 64 bits, in the statements' words (R17). -/
theorem fitsS_64 (v : Int) : fitsS 64 v = true ↔ Statement.Fits64 v := fitsS_iff 64 v

/-- A left shift whose exact value fits loses no bit (R17). -/
theorem shl_of_fits {n : Nat} (hn : 0 < n) {a : Int} {k : Nat} (h : fitsS n (a * 2 ^ k) = true) :
    shl n a k = a * 2 ^ k := wrapS_of_fits hn h

/-- Division by a divisor that is not zero is one checked step (R17). -/
theorem sdiv_of_ne {o : Ovf} {n : Nat} {b : Int} (h : b ≠ 0) (a : Int) :
    sdiv o n a b = chk o n (Statement.truncDiv a b) := by
  rw [sdiv, if_neg h, tdiv_eq_truncDiv]

/-! ### The functions -/

/-- The first six checks of R183 and R184 are `t_fine`'s. -/
theorem tCompFine_checks {cal : Coeffs} (h1 : Statement.Fits32 (cal.digT1 * 2)) (adcT : Int) :
    Checks 32 (tCompFine .fault cal adcT) ((Statement.tempExact cal adcT).1.take 6)
      (Statement.tempExact cal adcT).2.1 := by
  have hshl : shl 32 cal.digT1 1 = cal.digT1 * 2 := shl_of_fits (by decide) ((fitsS_32 _).mpr h1)
  rw [tCompFine, hshl]
  iterate 5 refine .step ?_
  exact .chk _

/-- The other two are the temperature's. -/
theorem tCompCenti_checks (cal : Coeffs) (adcT : Int) :
    Checks 32 (tCompCenti .fault (Statement.tempExact cal adcT).2.1) ((Statement.tempExact cal adcT).1.drop 6)
      (Statement.tempExact cal adcT).2.2 :=
  .step <| .step <| .ok _

/-- The function squares `v1` a second time after its first six checks (R190). -/
theorem pCompNorm_checks {cal : Coeffs} (h4 : Statement.Fits64 (cal.digP4 * 2 ^ 35)) (tFine : Int) :
    Checks 64 (pCompNorm .fault cal tFine) (Statement.presNormExact cal tFine).1
      (Statement.presNormExact cal tFine).2 := by
  have hshl : shl 64 cal.digP4 35 = cal.digP4 * 2 ^ 35 := shl_of_fits (by decide) ((fitsS_64 _).mpr h4)
  have h47 : shl 64 1 47 = 2 ^ 47 := by decide
  let xs := (Statement.presNormExact cal tFine).1
  have hsteps : Checks 64 (pCompNorm .fault cal tFine)
      (xs.take 6 ++ (tFine - 128000) * (tFine - 128000) :: xs.drop 6) (Statement.presNormExact cal tFine).2 := by
    rw [pCompNorm, hshl, h47]
    iterate 12 refine .step ?_
    exact .ok _
  exact .of_repeat (xs := xs.take 6) (ys := xs.drop 6) (.tail _ (.head _)) hsteps

theorem pCompScale_checks {cal : Coeffs} {v1 adcP : Int} (hv : v1 ≠ 0)
    (hp : Statement.Fits64 ((1048576 - adcP) * 2 ^ 31)) (h7 : Statement.Fits64 (cal.digP7 * 2 ^ 4)) (v2 : Int) :
    Checks 64 (pCompScale .fault cal v1 v2 adcP) (Statement.presScaleExact cal v1 v2 adcP).1
      (Statement.presScaleExact cal v1 v2 adcP).2 := by
  have hshl7 : shl 64 cal.digP7 4 = cal.digP7 * 2 ^ 4 := shl_of_fits (by decide) ((fitsS_64 _).mpr h7)
  have hshlp : shl 64 (1048576 - adcP) 31 = (1048576 - adcP) * 2 ^ 31 :=
    shl_of_fits (by decide) ((fitsS_64 _).mpr hp)
  simp only [pCompScale, sdiv_of_ne hv, hshl7]
  refine .step ?_
  rw [hshlp]
  iterate 8 refine .step ?_
  exact .chk _

theorem hCompPre_checks (cal : Coeffs) (tFine adcH : Int) :
    Checks 32 (hCompPre .fault cal tFine adcH) (Statement.humAccExact cal tFine adcH).1
      (Statement.humAccExact cal tFine adcH).2 := by
  rw [hCompPre]
  iterate 15 refine .step ?_
  exact .chk _

/-- `p_comp` with a zero normalisation term checks nothing more (R191). -/
theorem pComp_checks_of_zero {cal : Coeffs} {tFine : Int} (h4 : Statement.Fits64 (cal.digP4 * 2 ^ 35))
    (hv : (Statement.presNormExact cal tFine).2.1 = 0) (adcP : Int) :
    Checks 64 (pComp .fault cal tFine adcP) (Statement.presNormExact cal tFine).1 0 := by
  exact (pCompNorm_checks h4 tFine).bind_ok (if_pos hv)

/-- `p_comp` with another term makes the checks of its second half too (R190). -/
theorem pComp_checks_of_ne {cal : Coeffs} {tFine adcP : Int} (h4 : Statement.Fits64 (cal.digP4 * 2 ^ 35))
    (h7 : Statement.Fits64 (cal.digP7 * 2 ^ 4)) (hp : Statement.Fits64 ((1048576 - adcP) * 2 ^ 31))
    (hv : (Statement.presNormExact cal tFine).2.1 ≠ 0) :
    Checks 64 (pComp .fault cal tFine adcP) ((Statement.presNormExact cal tFine).1 ++
        (Statement.presScaleExact cal (Statement.presNormExact cal tFine).2.1
          (Statement.presNormExact cal tFine).2.2 adcP).1)
      (Statement.presScaleExact cal (Statement.presNormExact cal tFine).2.1
        (Statement.presNormExact cal tFine).2.2 adcP).2 := by
  refine (pCompNorm_checks h4 tFine).bind ?_
  rw [if_neg hv]
  exact pCompScale_checks hv hp h7 _

end Sys2Proof.Machine

/-!
SUPPORT. How TCOMP, PCOMP and HCOMP end (R180, R185, R193, R203): by their operands, by the entries they read, and by
the checks of their functions.
-/

namespace Sys2Proof.Machine

/-! ### What makes an operation ready -/

/-- An unwritten entry ends a ready operation that reads it with CalUnwritten, in the statements' words (R180). -/
theorem exec_calUnwritten {i : Instr} {s : State} {k : Fin 18} (hr : s.Ready i)
    (hread : Statement.ReadsEntry i s.opa k) (hk : s.calw[k] = false) :
    exec i s = .next (Statement.faulted s 0x04) := by
  have ⟨hf, _⟩ := hr
  rw [exec_of_body_error hr (bodyOf_calUnwritten hread hk), raise_eq_faulted hf]
  rfl

/-- Every entry the operation reads is written, in the statements' words (R41, R180). -/
theorem State.CalReady.of_readsEntry {i : Instr} {s : State}
    (h : ∀ k : Fin 18, Statement.ReadsEntry i s.opa k → s.calw[k] = true) : s.CalReady (calEntriesRead i s.opa) :=
  fun k hk => h k (mem_calEntriesRead.mp hk)

/-- No entry's type reaches beyond 16 bits, signed or unsigned (R150). -/
theorem State.CalTyped.bounds {s : State} (h : s.CalTyped) (k : Fin 18) : -32768 ≤ s.cal[k] ∧ s.cal[k] ≤ 65535 := by
  have htypes : ∀ k : Fin 18, -32768 ≤ calTypes[k].least ∧ calTypes[k].greatest ≤ 65535 := by decide
  obtain ⟨hlo, hhi⟩ := htypes k
  obtain ⟨hleast, hgreatest⟩ := h k
  exact ⟨hlo.trans hleast, hgreatest.trans hhi⟩

/-! ### The own rules, once the entries are written -/

theorem bodyOf_tcomp {s : State} (h : s.CalReady tcompEntries) :
    bodyOf .tcomp s = tCompFine s.params.ovf s.cal (s32 s.opa) >>= fun tf => tCompCenti s.params.ovf tf >>= fun tc =>
      .ok ((s.setRes0 (word tf)).setRes1 (word tc)) := by
  rw [bodyOf, tcompBody, needCal_ready h, ok_bind]

theorem bodyOf_pcomp {s : State} (h : s.CalReady pcompEntries) :
    bodyOf .pcomp s = pComp s.params.ovf s.cal (s32 s.opb) (s32 s.opa) >>= fun p => .ok (s.setRes0 (word p)) := by
  rw [bodyOf, pcompBody, needCal_ready h, ok_bind]

/-- The clamp and the shift make the humidity word of the statements (R201, R202). -/
theorem word_asr_clamp (v : Int) : word (asr (clamp v 0 humidityBound) 12) = Statement.humWord v := by
  rw [clamp, humidityBound, Statement.humWord]
  split
  · rfl
  · split <;> rfl

theorem bodyOf_hcomp {s : State} (h : s.CalReady hcompEntries) :
    bodyOf .hcomp s = hCompPre s.params.ovf s.cal (s32 s.opb) (s32 s.opa) >>= fun v =>
      .ok (s.setRes0 (Statement.humWord v)) := by
  simp only [bodyOf, hcompBody, needCal_ready h, ok_bind, word_asr_clamp]

/-! ### Under `OVF = wrap` -/

theorem exec_tcomp_wrap {s : State} (hr : s.Ready .tcomp) (hc : s.CalReady tcompEntries)
    (ho : s.params.ovf = .wrap) :
    exec .tcomp s =
      .next ((s.setRes0 (Statement.tempWrap s.cal s.opa).1).setRes1 (Statement.tempWrap s.cal s.opa).2) := by
  apply exec_of_body_ok hr
  rw [bodyOf_tcomp hc, ho, tCompFine_wrap, ok_bind, tCompCenti_wrap, ok_bind, word_s32, word_s32]
  rfl

theorem exec_pcomp_wrap {s : State} (hr : s.Ready .pcomp) (hc : s.CalReady pcompEntries)
    (ho : s.params.ovf = .wrap) :
    exec .pcomp s = .next (s.setRes0 (Statement.presWrap s.cal s.opb s.opa)) := by
  obtain ⟨p, hp, hword⟩ := pComp_wrap s.cal s.opb s.opa
  apply exec_of_body_ok hr
  rw [bodyOf_pcomp hc, ho, hp, ok_bind, hword]

theorem exec_hcomp_wrap {s : State} (hr : s.Ready .hcomp) (hc : s.CalReady hcompEntries)
    (ho : s.params.ovf = .wrap) :
    exec .hcomp s = .next (s.setRes0 (Statement.humWord (Statement.humAccWrap s.cal s.opb s.opa).toInt)) := by
  apply exec_of_body_ok hr
  rw [bodyOf_hcomp hc, ho, hCompPre_wrap, ok_bind]
  rfl

/-! ### Under `OVF = fault` -/

/-- An operation whose own rule makes the checks `xs` ends well, or records Overflow, as they say (R205). -/
theorem exec_of_checks {i : Instr} {s t : State} {n : Nat} {Fits : Int → Prop} {xs : List Int}
    (hfits : ∀ v, fitsS n v = true ↔ Fits v) (hr : s.Ready i) (h : Checks n (bodyOf i s) xs t) :
    ((∀ x ∈ xs, Fits x) → exec i s = .next t) ∧
    ((∃ x ∈ xs, ¬ Fits x) → exec i s = .next (Statement.faulted s 0x03)) := by
  have ⟨hf, _⟩ := hr
  obtain ⟨hok, hoverflow⟩ := h
  simp only [hfits] at hok hoverflow
  refine ⟨fun hall => exec_of_body_ok hr (hok hall), fun hsome => ?_⟩
  rw [exec_of_body_error hr (hoverflow hsome), raise_eq_faulted hf]
  rfl

theorem bodyOf_tcomp_checks {s : State} (hc : s.CalReady tcompEntries) (ho : s.params.ovf = .fault)
    (ht : s.CalTyped) :
    Checks 32 (bodyOf .tcomp s) (Statement.tempExact s.cal (s32 s.opa)).1
      ((s.setRes0 (word (Statement.tempExact s.cal (s32 s.opa)).2.1)).setRes1
        (word (Statement.tempExact s.cal (s32 s.opa)).2.2)) := by
  have h1 : Statement.Fits32 (Coeffs.digT1 s.cal * 2) := by
    have : -32768 ≤ Coeffs.digT1 s.cal ∧ Coeffs.digT1 s.cal ≤ 65535 := ht.bounds 0
    simp only [Statement.Fits32]
    omega
  rw [bodyOf_tcomp hc, ho, ← List.take_append_drop 6 (Statement.tempExact s.cal (s32 s.opa)).1]
  exact (tCompFine_checks h1 _).bind ((tCompCenti_checks s.cal _).bind_ok rfl)

theorem bodyOf_hcomp_checks {s : State} (hc : s.CalReady hcompEntries) (ho : s.params.ovf = .fault) :
    Checks 32 (bodyOf .hcomp s) (Statement.humAccExact s.cal (s32 s.opb) (s32 s.opa)).1
      (s.setRes0 (Statement.humWord (Statement.humAccExact s.cal (s32 s.opb) (s32 s.opa)).2)) := by
  rw [bodyOf_hcomp hc, ho]
  exact (hCompPre_checks s.cal _ _).bind_ok rfl

/-- The exact left shifts of a coefficient in R190 fit 64 bits (R150). -/
theorem State.CalTyped.fits_64 {s : State} (h : s.CalTyped) (k : Fin 18) {j : Nat} (hj : j ≤ 35) :
    Statement.Fits64 (s.cal[k] * 2 ^ j) := by
  obtain ⟨hlo, hhi⟩ := h.bounds k
  have hpos : (0 : Int) < 2 ^ j := by positivity
  have hle : (2 : Int) ^ j ≤ 2 ^ 35 := pow_le_pow_right₀ (by decide) hj
  constructor <;> nlinarith

/-- A 32-bit pressure code leaves room for the exact left shift in the second half of R190. -/
theorem fits_64_pressure (w : Word) : Statement.Fits64 ((1048576 - s32 w) * 2 ^ 31) := by
  have hlo := BitVec.le_toInt w
  have hhi := BitVec.toInt_lt (x := w)
  simp only [Statement.Fits64, s32]
  omega

theorem bodyOf_pcomp_checks_of_zero {s : State} (hc : s.CalReady pcompEntries) (ho : s.params.ovf = .fault)
    (ht : s.CalTyped) (hv : (Statement.presNormExact s.cal (s32 s.opb)).2.1 = 0) :
    Checks 64 (bodyOf .pcomp s) (Statement.presNormExact s.cal (s32 s.opb)).1 (s.setRes0 0) := by
  rw [bodyOf_pcomp hc, ho]
  exact (pComp_checks_of_zero (ht.fits_64 6 (by decide)) hv _).bind_ok rfl

theorem bodyOf_pcomp_checks_of_ne {s : State} (hc : s.CalReady pcompEntries) (ho : s.params.ovf = .fault)
    (ht : s.CalTyped) (hv : (Statement.presNormExact s.cal (s32 s.opb)).2.1 ≠ 0) :
    Checks 64 (bodyOf .pcomp s) ((Statement.presNormExact s.cal (s32 s.opb)).1 ++
        (Statement.presScaleExact s.cal (Statement.presNormExact s.cal (s32 s.opb)).2.1
          (Statement.presNormExact s.cal (s32 s.opb)).2.2 (s32 s.opa)).1)
      (s.setRes0 (word (Statement.presScaleExact s.cal (Statement.presNormExact s.cal (s32 s.opb)).2.1
        (Statement.presNormExact s.cal (s32 s.opb)).2.2 (s32 s.opa)).2)) := by
  rw [bodyOf_pcomp hc, ho]
  exact (pComp_checks_of_ne (ht.fits_64 6 (by decide)) (ht.fits_64 9 (by decide)) (fits_64_pressure s.opa) hv).bind_ok
    rfl

end Sys2Proof.Machine

namespace Sys2Proof.Proofs

open Sys2Proof.Machine Sys2Proof.Statement

/-- Settles O25: machine arithmetic under `OVF = wrap`, the list of exact checks under `OVF = fault`. -/
theorem tcompComputesTheTemperature : Obligations.TcompComputesTheTemperature := by
  unfold Obligations.TcompComputesTheTemperature
  refine ⟨decode_encode .tcomp, fun s hf => ⟨fun hu => ?_, fun ha ⟨k, hk, hw⟩ => ?_, fun ha hw => ?_⟩⟩
  · exact exec_operand_unwritten hf (.inl hu)
  · exact exec_calUnwritten (.of_opa rfl hf ha) (.inl ⟨rfl, hk⟩) hw
  · have hr : s.Ready .tcomp := .of_opa rfl hf ha
    have hc : s.CalReady (calEntriesRead .tcomp s.opa) :=
      .of_readsEntry fun k hk => hw k (by simpa [ReadsEntry] using hk)
    refine ⟨exec_tcomp_wrap hr hc, fun ho ht => ?_⟩
    exact exec_of_checks fitsS_32 hr (bodyOf_tcomp_checks hc ho ht)

/-- Settles O26: machine arithmetic under `OVF = wrap`; under `OVF = fault` the list of exact checks, which ends with
the normalisation term where that is 0. -/
theorem pcompComputesThePressure : Obligations.PcompComputesThePressure := by
  unfold Obligations.PcompComputesThePressure
  refine ⟨decode_encode .pcomp, fun s hf => ⟨fun hu => ?_, fun ha hb ⟨k, hlo, hhi, hw⟩ => ?_, fun ha hb hw => ?_⟩⟩
  · exact exec_operand_unwritten hf (hu.imp_right fun hb => ⟨rfl, hb⟩)
  · exact exec_calUnwritten (.of_written hf ha hb) (.inr (.inl ⟨rfl, hlo, hhi⟩)) hw
  · have hr : s.Ready .pcomp := .of_written hf ha hb
    have hc : s.CalReady (calEntriesRead .pcomp s.opa) := .of_readsEntry fun k hk => by
      obtain ⟨hlo, hhi⟩ : 3 ≤ k.val ∧ k.val < 12 := by simpa [ReadsEntry] using hk
      exact hw k hlo hhi
    refine ⟨exec_pcomp_wrap hr hc, fun ho ht => ?_⟩
    by_cases hv : (presNormExact s.cal (s32 s.opb)).2.1 = 0
    · obtain ⟨hok, hoverflow⟩ := exec_of_checks fitsS_64 hr (bodyOf_pcomp_checks_of_zero hc ho ht hv)
      exact ⟨hoverflow, fun hall => ⟨fun _ => hok hall, fun hne => absurd hv hne⟩⟩
    · obtain ⟨hok, hoverflow⟩ := exec_of_checks fitsS_64 hr (bodyOf_pcomp_checks_of_ne hc ho ht hv)
      simp only [List.mem_append] at hok hoverflow
      refine ⟨fun ⟨x, hx, hn⟩ => hoverflow ⟨x, .inl hx, hn⟩, fun hnorm => ⟨fun h0 => absurd h0 hv, fun _ => ?_⟩⟩
      exact ⟨fun ⟨x, hx, hn⟩ => hoverflow ⟨x, .inr hx, hn⟩,
        fun hscale => hok fun x hx => hx.elim (hnorm x) (hscale x)⟩

/-- Settles O27: machine arithmetic under `OVF = wrap`, the list of exact checks under `OVF = fault`. -/
theorem hcompComputesTheHumidity : Obligations.HcompComputesTheHumidity := by
  unfold Obligations.HcompComputesTheHumidity
  refine ⟨decode_encode .hcomp, fun s hf => ⟨fun hu => ?_, fun ha hb ⟨k, hk, hw⟩ => ?_, fun ha hb hw => ?_⟩⟩
  · exact exec_operand_unwritten hf (hu.imp_right fun hb => ⟨rfl, hb⟩)
  · exact exec_calUnwritten (.of_written hf ha hb) (.inr (.inr (.inl ⟨rfl, hk⟩))) hw
  · have hr : s.Ready .hcomp := .of_written hf ha hb
    have hc : s.CalReady (calEntriesRead .hcomp s.opa) :=
      .of_readsEntry fun k hk => hw k (by simpa [ReadsEntry] using hk)
    refine ⟨exec_hcomp_wrap hr hc, fun ho _ => ?_⟩
    exact exec_of_checks fitsS_32 hr (bodyOf_hcomp_checks hc ho)

/-- Settles O28. -/
theorem compensationChecksItsCoefficients : Obligations.CompensationChecksItsCoefficients := by
  unfold Obligations.CompensationChecksItsCoefficients
  exact fun s i k _ => exec_calUnwritten

end Sys2Proof.Proofs

/-!
SUPPORT. The zero short-circuit of the pressure (R191), the range of the humidity (R201, R202, R204), what a
compensation operation's results depend on (R182), and the rescaling of a centidegree temperature (R186).
-/

namespace Sys2Proof.Machine

/-- DivideByZero is raised by the two divisions alone (R191, R230, R232). -/
theorem bodyOf_error_divideByZero {i : Instr} {s : State} (h : bodyOf i s = .error .divideByZero) :
    i = .fxdiv10 ∨ i = .fxdiv8 := by
  rcases bodyOf_error h with ⟨hc, _⟩ | ⟨hc, _⟩ | ⟨_, hi, _⟩ | ⟨hc, _⟩
  · cases hc
  · cases hc
  · exact hi
  · cases hc

/-! ### The humidity -/

/-- The humidity word of any accumulator is at most 100 % in FX10 (R201, R202). -/
theorem humWord_toNat_le (acc : Int) : (Statement.humWord acc).toNat ≤ 102400 := by
  unfold Statement.humWord
  split
  · decide
  · split
    · decide
    · rw [BitVec.toNat_ofInt]
      omega

/-- A word of at most 102400 is an FX10 value between 0 and 100 (R111). -/
theorem fx10Value_range {w : Word} (h : w.toNat ≤ 102400) : 0 ≤ fx10Value w ∧ fx10Value w ≤ 100 := by
  have hs : (s32 w : ℚ) = (w.toNat : ℚ) := by
    rw [s32, BitVec.toInt_eq_toNat_of_lt (by omega), Int.cast_natCast]
  have hq : (w.toNat : ℚ) ≤ 102400 := by exact_mod_cast h
  rw [fx10Value, hs]
  exact ⟨by positivity, by linarith⟩

/-- Whatever HCOMP's own rule leaves, it is a humidity word in `RES0` (R203). -/
theorem bodyOf_hcomp_ok {s t : State} (h : bodyOf .hcomp s = .ok t) : ∃ acc, t = s.setRes0 (Statement.humWord acc) := by
  obtain ⟨hc, _⟩ := bodyOf_ok_ready h
  rw [bodyOf_hcomp hc, bind_eq_ok] at h
  obtain ⟨acc, _, ht⟩ := h
  cases ht
  exact ⟨acc, rfl⟩

/-! ### Two runs that agree on what the operation reads -/

/-- Readiness looks at the written bits of the entries alone (R180). -/
theorem needCal_congr {s u : State} {ks : List (Fin 18)} (h : ∀ k ∈ ks, s.calw[k] = u.calw[k]) :
    s.needCal ks = u.needCal ks := by
  by_cases hs : s.CalReady ks
  · rw [needCal_ready hs, needCal_ready fun k hk => (h k hk).symm.trans (hs k hk)]
  · rw [needCal_unready hs, needCal_unready fun hu => hs fun k hk => (h k hk).trans (hu k hk)]

/-- Two own rules end alike: with the same fault, or each with the same words in its own engine's result registers. -/
inductive SameResults (i : Instr) (s u : State) : Except Cause State → Except Cause State → Prop where
  | error (c : Cause) : SameResults i s u (.error c) (.error c)
  | one (hi : i ≠ .tcomp) (v : Word) : SameResults i s u (.ok (s.setRes0 v)) (.ok (u.setRes0 v))
  | two (v w : Word) : SameResults i s u (.ok ((s.setRes0 v).setRes1 w)) (.ok ((u.setRes0 v).setRes1 w))

/-- Two rules that begin with the same step end alike if they do after every value it can have. -/
theorem SameResults.bind {α : Type} {i : Instr} {s u : State} {x y : Except Cause α} {f g : α → Except Cause State}
    (hxy : x = y) (hf : ∀ a, SameResults i s u (f a) (g a)) : SameResults i s u (x >>= f) (y >>= g) := by
  subst hxy
  cases x with
  | error c => exact .error c
  | ok a => exact hf a

/-- A compensation operation's own rule reads its operands, the entries listed for it and `OVF`, and nothing else
(R41, R182). -/
theorem bodyOf_sameResults {i : Instr} {s u : State} (hi : i = .tcomp ∨ i = .pcomp ∨ i = .hcomp)
    (ho : s.params.ovf = u.params.ovf) (ha : s.opa = u.opa) (hb : i ≠ .tcomp → s.opb = u.opb)
    (hcal : AgreeOn (calEntriesRead i s.opa) s.cal u.cal)
    (hcalw : ∀ k ∈ calEntriesRead i s.opa, s.calw[k] = u.calw[k]) : SameResults i s u (bodyOf i s) (bodyOf i u) := by
  rcases hi with rfl | rfl | rfl
  · refine .bind (needCal_congr hcalw) fun _ => .bind ?_ fun tf => .bind (by rw [ho]) fun tc => .two _ _
    rw [ho, ha, tCompFine_congr hcal]
  · refine .bind (needCal_congr hcalw) fun _ => .bind ?_ fun p => .one (by decide) _
    rw [ho, ha, hb (by decide), pComp_congr hcal]
  · refine .bind (needCal_congr hcalw) fun _ => .bind ?_ fun v => .one (by decide) _
    rw [ho, ha, hb (by decide), hCompPre_congr hcal]

/-! ### The FX10 quotient -/

/-- A common positive factor of dividend and divisor leaves the truncated quotient as it is (R17). -/
theorem truncDiv_mul_mul_of_pos {c : Int} (hc : 0 < c) (a b : Int) :
    Statement.truncDiv (c * a) (c * b) = Statement.truncDiv a b := by
  rw [← tdiv_eq_truncDiv, ← tdiv_eq_truncDiv]
  exact Int.mul_tdiv_mul_of_pos a b hc

/-- FXNEW10 on a running engine whose host has just written an integer and the fraction 0 (R31, R115). -/
theorem exec_fxnew10_integer {s : State} (hf : s.fault = false) (i : Word) :
    ∃ t, exec .fxnew10 (Statement.withOperands s i 0) = .next t ∧ t.fault = false ∧
      t.res0 = BitVec.ofInt 32 (i.toInt * 1024) := by
  have hnew : fx10New i 0 = BitVec.ofInt 32 (i.toInt * 1024) := by
    rw [fx10New_eq]
    simp
  exact ⟨_, exec_withOperands hf rfl, (State.setRes0_fault _ _).trans hf, hnew⟩

end Sys2Proof.Machine

namespace Sys2Proof.Proofs

open Sys2Proof.Machine Sys2Proof.Statement

/-- Settles O29: a zero normalisation term makes the word 0, and code 0x02 is DivideByZero's alone. -/
theorem pressureShortCircuitsOnZero : Obligations.PressureShortCircuitsOnZero := by
  unfold Obligations.PressureShortCircuitsOnZero
  refine ⟨fun s hr hc ho hzero => ?_, fun s t hf h ht hcode => ?_⟩
  · have hnorm : (presNormWrap s.cal s.opb).1 = 0 := hzero.elim (presNormWrap_of_digP1_zero · _) id
    rw [exec_pcomp_wrap hr hc ho, presWrap_of_norm_zero hnorm]
    rfl
  · rcases exec_records_cases hf h ht with rfl | ⟨c, hb, rfl⟩ <;> rw [State.raise_fcode_running hf] at hcode
    · exact absurd hcode (by decide)
    · obtain rfl : c = .divideByZero := Cause.code_injective hcode
      exact absurd (bodyOf_error_divideByZero hb) (by decide)

/-- Settles O30: every humidity word is in range, and HCOMP answers no other. -/
theorem humidityLiesInItsRange : Obligations.HumidityLiesInItsRange := by
  unfold Obligations.HumidityLiesInItsRange
  refine ⟨fun s hr hc ho => ?_, fun s t _ h ht => ?_⟩
  · have ⟨hf, _⟩ := hr
    refine ⟨_, exec_hcomp_wrap hr hc ho, (State.setRes0_fault s _).trans hf, rfl, ?_⟩
    rw [State.setRes0_res0]
    exact humWord_toNat_le _
  · obtain ⟨_, hb⟩ := exec_unfaulted h ht
    obtain ⟨acc, rfl⟩ := bodyOf_hcomp_ok hb
    exact fx10Value_range (humWord_toNat_le acc)

/-- Settles O33: both own rules see the same and so end alike; what the first changes is read off how it ends. -/
theorem compensationIsPure : Obligations.CompensationIsPure := by
  unfold Obligations.CompensationIsPure
  intro i s u hi hs hu ho ha hb hk
  have hend : SameResults i s u (bodyOf i s) (bodyOf i u) :=
    bodyOf_sameResults hi ho ha hb (fun k hmem => (hk k (mem_calEntriesRead.mp hmem)).1)
      fun k hmem => (hk k (mem_calEntriesRead.mp hmem)).2
  have ⟨hfs, _⟩ := hs
  have ⟨hfu, _⟩ := hu
  rw [exec_ready hs, exec_ready hu]
  generalize bodyOf i s = x, bodyOf i u = y at hend
  cases hend with
  | error c =>
    refine ⟨_, _, rfl, rfl, ?_⟩
    rw [State.raise_running hfs, State.raise_running hfu]
    exact ⟨rfl, fun _ => rfl, nofun, rfl⟩
  | one hne v =>
    exact ⟨_, _, rfl, rfl, hfs.trans hfu.symm, by simp [hfs], fun _ => ⟨rfl, fun h => absurd h hne⟩, rfl⟩
  | two v w =>
    exact ⟨_, _, rfl, rfl, hfs.trans hfu.symm, by simp [hfs], fun _ => ⟨rfl, fun _ => rfl⟩, rfl⟩

/-- Settles O21: both constructions scale by 1024; in range that loses nothing, and the divisor's scale cancels. -/
theorem centidegreesRescaleToDegrees : Obligations.CentidegreesRescaleToDegrees := by
  unfold Obligations.CentidegreesRescaleToDegrees
  intro s tc hf
  obtain ⟨h, hexec, hrun, hres⟩ := exec_fxnew10_integer hf 100
  obtain ⟨n, nexec, nrun, nres⟩ := exec_fxnew10_integer hrun tc
  have hdivisor : h.res0 = 102400 := hres
  have hdiv := exec_fxdiv10 (s := withOperands n n.res0 h.res0) (.of_written nrun rfl rfl)
    (ne_of_eq_of_ne hdivisor (by decide))
  have hquotient : truncDiv (n.res0.toInt * 1024) h.res0.toInt =
      truncDiv ((BitVec.ofInt 32 (tc.toInt * 1024)).toInt * 1024) 102400 := by
    rw [nres, hdivisor]
    rfl
  refine ⟨h, n, _, hexec, nexec, hdiv, congrArg (BitVec.ofInt 32) hquotient, fun hlo hhi => ?_⟩
  have hexact : (BitVec.ofInt 32 (tc.toInt * 1024)).toInt = tc.toInt * 1024 :=
    BitVec.toInt_ofInt_eq_self (by decide) (by omega) (by omega)
  have hcancel : truncDiv (tc.toInt * 1024 * 1024) 102400 = truncDiv (tc.toInt * 1024) 100 := by
    rw [Int.mul_comm]
    exact truncDiv_mul_mul_of_pos (by decide : (0 : Int) < 1024) _ 100
  rw [hexact] at hquotient
  exact congrArg (BitVec.ofInt 32) (hquotient.trans hcancel)

end Sys2Proof.Proofs

/-!
SUPPORT. The step that records a fault: all it leaves of the engine is the engine before it with that fault recorded
(R230, R234, R239), and the operations that read a coefficient entry (R41, R154, R180).
-/

namespace Sys2Proof.Machine

open Sys2Proof.Statement

/-- An operation that records a fault in a running engine does nothing else (R234, R239). -/
theorem ExecEffect.eq_raise_of_recorded {i : Instr} {s t : State} (h : ExecEffect i s t) (hs : s.fault = false)
    (ht : t.fault = true) : ∃ c, t = s.raise c := by
  cases h with
  | raised _ c => exact ⟨c, rfl⟩
  | _ => simp [hs] at ht

/-- A host access that records a fault in a running engine does nothing else but answer, if it is a read (R65, R233,
R234). -/
theorem AccessEffect.faulted_of_recorded {s t : State} (h : AccessEffect s t) (hs : s.fault = false)
    (ht : t.fault = true) : ∃ (c : Cause) (a : List Word) (n : Nat),
      t = { faulted s c.code with answers := a, draws := n } := by
  cases h with
  | raised c => exact ⟨c, _, _, raise_eq_faulted hs c⟩
  | answeredFaulting c => exact ⟨c, _, _, congrArg State.answerFree (raise_eq_faulted hs c)⟩
  | performed h =>
    obtain ⟨c, rfl⟩ := h.eq_raise_of_recorded hs ht
    exact ⟨c, _, _, raise_eq_faulted hs c⟩
  | _ => simp [hs] at ht

/-- Only a compensation operation or RDCAL reads a coefficient entry, so no other finds one unwritten (R41, R154,
R180). -/
theorem operation_of_not_calReady {i : Instr} {s : State} (h : ¬ s.CalReady (calEntriesRead i s.opa)) :
    i = .tcomp ∨ i = .pcomp ∨ i = .hcomp ∨ i = .rdcal := by
  obtain ⟨_, hreads, _⟩ := not_calReady_iff.mp h
  exact hreads.imp And.left (Or.imp And.left (Or.imp And.left And.left))

end Sys2Proof.Machine

namespace Sys2Proof.Proofs

open Sys2Proof.Machine Sys2Proof.Statement

/-- Settles O35: of a step's effects only a host access on a running engine records a fault, and it records nothing
else. -/
theorem faultsArePrecise : Obligations.FaultsArePrecise := by
  unfold Obligations.FaultsArePrecise
  intro s t hs h ht
  rcases step_next_cases h with ⟨_, rfl⟩ | ⟨rest, _, rfl⟩ | ⟨e, rest, _, _, ha⟩
  · simp [hs] at ht
  · simp at ht
  · obtain ⟨c, a, n, rfl⟩ := ha.faulted_of_recorded hs ht
    exact ⟨⟨rfl, rfl, rfl, rfl, rfl, rfl, rfl, rfl, rfl, rfl, rfl, rfl, rfl⟩, c.code_range⟩

/-- Settles O37: the code is OperandUnwritten's or that of a cause the operation's own rule raises, cause by cause. -/
theorem eachOperationRaisesOnlyItsFaults : Obligations.EachOperationRaisesOnlyItsFaults := by
  unfold Obligations.EachOperationRaisesOnlyItsFaults
  intro i s t hs h ht
  rcases exec_records_cases hs h ht with rfl | ⟨c, hb, rfl⟩ <;> rw [State.raise_fcode_running hs]
  · exact .inl rfl
  · rcases bodyOf_error hb with ⟨rfl, hi, _⟩ | ⟨rfl, hr⟩ | ⟨rfl, hi, _⟩ | ⟨rfl, _, hi, _⟩
    · exact .inr (.inr (.inr (.inr ⟨rfl, hi⟩)))
    · exact .inr (.inr (.inr (.inl ⟨rfl, operation_of_not_calReady hr⟩)))
    · exact .inr (.inl ⟨rfl, hi⟩)
    · exact .inr (.inr (.inl ⟨rfl, hi⟩))

end Sys2Proof.Proofs
